-- ==== Sys2Proof/Word.lean ====
section
/-! DEFINITION. The values that travel on the ports of the frame codec block and stand in its registers:
bytes, single bits, the 8-byte frame, the decoded-response record, the frame-kind selector and the read result. -/

namespace Sys2Proof

/-- A frame byte: "every frame byte is an unsigned 8-bit value" (00_scope.md R7). -/
abbrev Byte := BitVec 8

/-- A 1-bit value: the ack bit and the 1-bit operands (00_scope.md R6, 30_encoding.md R77). -/
abbrev Bit := BitVec 1

/-- An 8-byte frame sent by the block, byte by byte in index order under the names of 30_encoding.md R60.
A reset frame (R65) has the same eight places: there `enable`, `escrow` and `rsvd` (indices 3, 4, 5) hold
the fixed payload. -/
structure TxFrame where
  stx    : Byte
  len    : Byte
  ctrl   : Byte
  enable : Byte
  escrow : Byte
  rsvd   : Byte
  etx    : Byte
  chk    : Byte
deriving DecidableEq, Repr, Inhabited

/-- The decoded-response record of 41_codec.md R103, every field as that rule lists it. -/
structure DecodedRecord where
  ctrl    : Byte
  ack     : Bit
  payload : BitVec 24
  rsv6    : Byte
  aux7    : Byte
  aux8    : Byte
  chk     : Byte
deriving DecidableEq, Repr, Inhabited

/-- The `kind` operand of CHECKSUM_OK: 0 = CMD, 1 = RSP (30_encoding.md R77). -/
inductive FrameKind where
  | cmd
  | rsp
deriving DecidableEq, Repr

/-- The read result handed to RX_RESULT: `Timeout`, or a byte sequence (00_scope.md R13, 30_encoding.md R77). -/
inductive ReadResult where
  | timeout
  | bytes (f : List Byte)
deriving DecidableEq, Repr

end Sys2Proof
end

