-- ==== Sys2Proof/Config.lean ====
section
/-! DEFINITION. What is fixed for the machine: the sizes and constants the spec gives, the open parameter
ACK_INIT, the chosen N_MAX, and the free value LAST_TX takes at INIT. -/

namespace Sys2Proof.Config

/-- `ACK_INIT` of 00_scope.md R8, an OPEN parameter: a constant with no body, so that nothing proved of it
names one of its two values. Log entry 1. -/
opaque ackInit : Bit

/-- The "any 8 bytes" LAST_TX holds after INIT (10_state.md R23, 43_sequence.md R150): a free value, one for
each draw. Log entry 2. -/
opaque freeFrame : Nat → TxFrame

/-- `N_MAX`, the longest byte sequence an operand may be. DESIGN CHOICE: 30_encoding.md R80 limits it to
254 and 10_state.md R30 asks for at least 11. Log entry 7. -/
def nMax : Nat := 254

/-- `CMD_LEN`: a command or reset frame's length with its checksum (00_scope.md R6). -/
def cmdLen : Nat := 8

/-- `RSP_LEN`: a response frame's length with its checksum (00_scope.md R6). -/
def rspLen : Nat := 11

/-- The start byte of every frame (30_encoding.md R60, R67). -/
def stx : Byte := 0x02#8

/-- The end byte of every frame (30_encoding.md R60, R67). -/
def etx : Byte := 0x03#8

/-- The longest request in bytes: ACK_MATCHES with two sequences of `N_MAX` bytes, each after its length
byte (30_encoding.md R80). -/
def maxRequestBytes : Nat := 511

end Sys2Proof.Config
end

