-- ==== Sys2Proof/Syntax.lean ====
section
/-! DEFINITION. The operations of the request port, one constructor per row of spec/opcode_table.json, with
the operands of 30_encoding.md R77 in that rule's order. -/

namespace Sys2Proof

/-- One operation with its operands. The rule in each docstring gives its meaning. -/
inductive Instr where
  /-- INIT (R150). -/
  | init
  /-- REQ_RESET (R151). -/
  | reqReset
  /-- TX_SELECT (R152). -/
  | txSelect (en : Byte) (mode stack reject : Bit)
  /-- TX_RESULT (R153): 0 = OK, 1 = WriteError, 2 = PortError, 3 reserved. -/
  | txResult (wres : BitVec 2)
  /-- RX_RESULT (R154). -/
  | rxResult (rx : ReadResult)
  /-- ENC_CMD (R100). -/
  | encCmd (ctrl en esc : Byte)
  /-- ENC_RESET (R101). -/
  | encReset (ack : Bit)
  /-- CHECKSUM (R130). -/
  | checksum (f : List Byte)
  /-- CHECKSUM_OK (R131). -/
  | checksumOk (f : List Byte) (kind : FrameKind)
  /-- ACK_MATCHES (R132). -/
  | ackMatches (sent received : List Byte)
  /-- DEC_RSP (R102). -/
  | decRsp (f : List Byte)
  /-- DEC_STATE (R104). -/
  | decState (d : DecodedRecord)
  /-- DEC_EVENTS (R105). -/
  | decEvents (d : DecodedRecord)
  /-- DEC_CASHBOX (R106). -/
  | decCashbox (d : DecodedRecord)
  /-- DEC_CREDIT (R107). -/
  | decCredit (d : DecodedRecord)
  /-- DEC_DIAG (R108). -/
  | decDiag (d : DecodedRecord)
deriving DecidableEq, Repr

end Sys2Proof
end

