-- ==== Sys2Proof/WellFormed.lean ====
section
/-! DEFINITION. Which operands have the shape 30_encoding.md R78 asks for, as far as the operation alone can
tell. That a record was returned earlier in the run is a question to the state (Machine/Operands.lean). -/

namespace Sys2Proof

/-- A byte sequence of length 0 to `N_MAX` (30_encoding.md R77, R78). -/
def seqFits (f : List Byte) : Bool := f.length ≤ Config.nMax

/-- A read result: `Timeout`, or a byte sequence that fits. -/
def readFits : ReadResult → Bool
  | .timeout => true
  | .bytes f => seqFits f

/-- `d.ack` is bit 0 of `d.ctrl`, as in every record DEC_RSP makes (41_codec.md R103). -/
def DecodedRecord.consistent (d : DecodedRecord) : Bool := d.ack == (d.ctrl &&& 1#8).setWidth 1

/-- The operands have the shapes of 30_encoding.md R77. -/
def Instr.wellFormed : Instr → Bool
  | .init => true
  | .reqReset => true
  | .txSelect _ _ _ _ => true
  | .txResult wres => wres != 3#2
  | .rxResult rx => readFits rx
  | .encCmd _ _ _ => true
  | .encReset _ => true
  | .checksum f => seqFits f
  | .checksumOk f _ => seqFits f
  | .ackMatches sent received => seqFits sent && seqFits received
  | .decRsp f => seqFits f
  | .decState d => d.consistent
  | .decEvents d => d.consistent
  | .decCashbox d => d.consistent
  | .decCredit d => d.consistent
  | .decDiag d => d.consistent

end Sys2Proof
end

