-- ==== Sys2Proof/Decode.lean ====
section
/-! DEFINITION. The binary encoding of requests (30_encoding.md R76, R77, R80): a total decoder that rejects by
name, and the encoder written from the same rules. A request is one byte with the OP code, zero-extended,
then the operands in the order of R77. The encoding of a decoded-response record is the model's own (log entry 8). -/

namespace Sys2Proof

/-- Why a request's bytes are no operation. Each of these is a refusal (60_exceptions.md R187: "a reserved OP
code, a TX_RESULT code 3, or a malformed operand"). -/
inductive DecodeError where
  /-- A first byte that is no zero-extended OP code of R76. -/
  | reservedOp (b : Byte)
  /-- The request ends before its operands do. -/
  | truncated
  /-- A 1-bit operand whose byte is neither 0 nor 1. -/
  | notOneBit (b : Byte)
  /-- A TX_RESULT code byte of 3 or more (R77: "3 reserved"; the operand has 2 bits). -/
  | reservedWriteResult (b : Byte)
  /-- A length byte above `N_MAX` where `Timeout` is no operand (R78, R80). -/
  | sequenceTooLong
  /-- A record whose ack bit is not bit 0 of its control byte: no record of DEC_RSP (R78, R103). -/
  | malformedRecord
  /-- Bytes left over after the last operand. -/
  | trailingBytes
deriving DecidableEq, Repr

/-- What reading an operand gives: the value and the bytes after it. -/
abbrev Parsed (α : Type) := Except DecodeError (α × List Byte)

/-- Read one operand, then go on with it and the bytes after it. -/
def andThen {α β : Type} (p : Parsed α) (k : α → List Byte → Parsed β) : Parsed β :=
  match p with
  | .error e => .error e
  | .ok (a, rest) => k a rest

/-- A byte operand. -/
def takeByte : List Byte → Parsed Byte
  | [] => .error .truncated
  | b :: rest => .ok (b, rest)

/-- A 1-bit operand, "one byte holding the value" (R80). -/
def takeBit : List Byte → Parsed Bit
  | [] => .error .truncated
  | b :: rest => if b.toNat < 2 then .ok (b.setWidth 1, rest) else .error (.notOneBit b)

/-- `wres`, one byte holding the 2-bit value; 3 is reserved (R77). -/
def takeWriteResult : List Byte → Parsed (BitVec 2)
  | [] => .error .truncated
  | b :: rest => if b.toNat < 3 then .ok (b.setWidth 2, rest) else .error (.reservedWriteResult b)

/-- `kind`, one byte: 0 = CMD, 1 = RSP (R77). -/
def takeKind : List Byte → Parsed FrameKind
  | [] => .error .truncated
  | b :: rest =>
    if b = 0#8 then .ok (.cmd, rest) else if b = 1#8 then .ok (.rsp, rest) else .error (.notOneBit b)

/-- A byte sequence: one length byte, then its bytes (R80). -/
def takeSeq : List Byte → Parsed (List Byte)
  | [] => .error .truncated
  | n :: rest =>
    if Config.nMax < n.toNat then .error .sequenceTooLong
    else if rest.length < n.toNat then .error .truncated
    else .ok (rest.take n.toNat, rest.drop n.toNat)

/-- A read result: the single byte 0xFF for `Timeout`, else a byte sequence (R80). -/
def takeRead : List Byte → Parsed ReadResult
  | [] => .error .truncated
  | b :: rest =>
    if b = 0xFF#8 then .ok (.timeout, rest)
    else andThen (takeSeq (b :: rest)) fun f rest => .ok (.bytes f, rest)

/-- The bytes of a 24-bit payload, STATE, EVTERR, STATUS, packed as R81 packs them. -/
def packPayload (b3 b4 b5 : Byte) : BitVec 24 :=
  (b5.setWidth 24 <<< 16) ||| (b4.setWidth 24 <<< 8) ||| b3.setWidth 24

/-- A decoded-response record: nine bytes in R103's field order, the payload low byte first. DESIGN CHOICE:
R80 says a record "has no program encoding"; this one is the model's (log entry 8). -/
def takeRecord : List Byte → Parsed DecodedRecord
  | ctrl :: ack :: b3 :: b4 :: b5 :: rsv6 :: aux7 :: aux8 :: chk :: rest =>
    if ack = ctrl &&& 1#8 then .ok (⟨ctrl, ack.setWidth 1, packPayload b3 b4 b5, rsv6, aux7, aux8, chk⟩, rest)
    else .error .malformedRecord
  | _ => .error .truncated

/-- The operation whose request begins the given bytes, with the bytes after it: the OP codes of R76, the
operands of R77 in that rule's order. -/
def decodePrefix : List Byte → Parsed Instr
  | [] => .error .truncated
  | op :: rest =>
    match op.toNat with
    | 0 => .ok (.init, rest)
    | 1 => .ok (.reqReset, rest)
    | 2 =>
      andThen (takeByte rest) fun en rest =>
      andThen (takeBit rest) fun mode rest =>
      andThen (takeBit rest) fun stack rest =>
      andThen (takeBit rest) fun reject rest => .ok (.txSelect en mode stack reject, rest)
    | 3 => andThen (takeWriteResult rest) fun wres rest => .ok (.txResult wres, rest)
    | 4 => andThen (takeRead rest) fun rx rest => .ok (.rxResult rx, rest)
    | 8 =>
      andThen (takeByte rest) fun ctrl rest =>
      andThen (takeByte rest) fun en rest =>
      andThen (takeByte rest) fun esc rest => .ok (.encCmd ctrl en esc, rest)
    | 9 => andThen (takeBit rest) fun ack rest => .ok (.encReset ack, rest)
    | 10 => andThen (takeSeq rest) fun f rest => .ok (.checksum f, rest)
    | 11 =>
      andThen (takeSeq rest) fun f rest =>
      andThen (takeKind rest) fun kind rest => .ok (.checksumOk f kind, rest)
    | 12 =>
      andThen (takeSeq rest) fun sent rest =>
      andThen (takeSeq rest) fun received rest => .ok (.ackMatches sent received, rest)
    | 16 => andThen (takeSeq rest) fun f rest => .ok (.decRsp f, rest)
    | 17 => andThen (takeRecord rest) fun d rest => .ok (.decState d, rest)
    | 18 => andThen (takeRecord rest) fun d rest => .ok (.decEvents d, rest)
    | 19 => andThen (takeRecord rest) fun d rest => .ok (.decCashbox d, rest)
    | 20 => andThen (takeRecord rest) fun d rest => .ok (.decCredit d, rest)
    | 21 => andThen (takeRecord rest) fun d rest => .ok (.decDiag d, rest)
    | _ => .error (.reservedOp op)

/-- The operation a request's bytes stand for: one operation and nothing after it (10_state.md R30: the port
"carries one operation at a time"). -/
def decode (bs : List Byte) : Except DecodeError Instr :=
  match decodePrefix bs with
  | .error e => .error e
  | .ok (i, []) => .ok i
  | .ok (_, _ :: _) => .error .trailingBytes

/-- The byte that holds a 1-bit operand (R80). -/
def bitByte (b : Bit) : Byte := b.setWidth 8

/-- The byte that holds `kind` (R77, R80). -/
def kindByte : FrameKind → Byte
  | .cmd => 0#8
  | .rsp => 1#8

/-- A byte sequence: its length byte, then its bytes (R80). -/
def seqBytes (f : List Byte) : List Byte := BitVec.ofNat 8 f.length :: f

/-- A read result's bytes: 0xFF for `Timeout` (R80). -/
def readBytes : ReadResult → List Byte
  | .timeout => [0xFF#8]
  | .bytes f => seqBytes f

/-- A record's bytes (log entry 8). -/
def recordBytes (d : DecodedRecord) : List Byte :=
  [d.ctrl, bitByte d.ack, d.payload.extractLsb' 0 8, d.payload.extractLsb' 8 8, d.payload.extractLsb' 16 8,
    d.rsv6, d.aux7, d.aux8, d.chk]

/-- The OP code of R76, 5 bits. -/
def opCode : Instr → BitVec 5
  | .init => 0b00000#5
  | .reqReset => 0b00001#5
  | .txSelect _ _ _ _ => 0b00010#5
  | .txResult _ => 0b00011#5
  | .rxResult _ => 0b00100#5
  | .encCmd _ _ _ => 0b01000#5
  | .encReset _ => 0b01001#5
  | .checksum _ => 0b01010#5
  | .checksumOk _ _ => 0b01011#5
  | .ackMatches _ _ => 0b01100#5
  | .decRsp _ => 0b10000#5
  | .decState _ => 0b10001#5
  | .decEvents _ => 0b10010#5
  | .decCashbox _ => 0b10011#5
  | .decCredit _ => 0b10100#5
  | .decDiag _ => 0b10101#5

/-- The operand bytes, in the order of R77. -/
def operandBytes : Instr → List Byte
  | .init => []
  | .reqReset => []
  | .txSelect en mode stack reject => [en, bitByte mode, bitByte stack, bitByte reject]
  | .txResult wres => [wres.setWidth 8]
  | .rxResult rx => readBytes rx
  | .encCmd ctrl en esc => [ctrl, en, esc]
  | .encReset ack => [bitByte ack]
  | .checksum f => seqBytes f
  | .checksumOk f kind => seqBytes f ++ [kindByte kind]
  | .ackMatches sent received => seqBytes sent ++ seqBytes received
  | .decRsp f => seqBytes f
  | .decState d => recordBytes d
  | .decEvents d => recordBytes d
  | .decCashbox d => recordBytes d
  | .decCredit d => recordBytes d
  | .decDiag d => recordBytes d

/-- The bytes of a request: the OP code zero-extended to 8 bits, then the operands (R80). -/
def encode (i : Instr) : List Byte := (opCode i).setWidth 8 :: operandBytes i

/-- A table word laid out as request bytes, bit 0 in the first byte, with `zeros` zero bytes after it. -/
def tableBytes (zeros nbits w : Nat) : List Byte :=
  (List.range ((nbits + 7) / 8)).map (fun k => BitVec.ofNat 8 (w >>> (8 * k))) ++ List.replicate zeros 0#8

/-- The bytes the first operation of `bs` takes; `bs` itself where it begins with none. -/
def takenBytes (bs : List Byte) : List Byte :=
  match decodePrefix bs with
  | .error _ => bs
  | .ok (_, rest) => bs.take (bs.length - rest.length)

/-- The request a table word stands for, the bits above `nbits` zero: the bytes its operation takes. A word of 8 bits
needs few zero bytes; only where 16 end inside the operands are there as many as the longest request has. -/
def tableRequest (nbits w : Nat) : List Byte :=
  match decodePrefix (tableBytes 16 nbits w) with
  | .error .truncated => takenBytes (tableBytes Config.maxRequestBytes nbits w)
  | _ => takenBytes (tableBytes 16 nbits w)

/-- The operation the decoder reads from a table word (bits above `nbits` zero). -/
def decodeTableWord (nbits w : Nat) : Option Instr :=
  match decode (tableRequest nbits w) with
  | .ok i => some i
  | .error _ => none

end Sys2Proof
end

