-- ==== Sys2Proof/Machine/State.lean ====
section
/-! DEFINITION. The state of one block instance: the seven registers of 10_state.md R20, and beside them what the
model needs to hold of its ports and of the run (the request queue, the answer last given, the records handed
out, the refusals recorded, the count of free values drawn). -/

namespace Sys2Proof.Machine

/-- PHASE, the sequencer position inside one tick (10_state.md R25). Codes: Machine/Flags.lean. -/
inductive Phase where
  /-- Between ticks: TX_SELECT allowed. -/
  | idle
  /-- A frame has been handed to the transport: TX_RESULT allowed. -/
  | txWait
  /-- The frame was written: RX_RESULT allowed. -/
  | rxWait
deriving DecidableEq, Repr

/-- TX_KIND, which frame TX_SELECT chose for the current tick (10_state.md R26). -/
inductive TxKind where
  | fresh
  | replay
  | reset
deriving DecidableEq, Repr

/-- DeviceState, in the order of increasing priority (41_codec.md R110). -/
inductive DeviceState where
  | offline
  | idling
  | accepting
  | escrowed
  | stacking
  | returning
  | billJammed
  | stackerFull
  | acceptorFailure
deriving DecidableEq, Repr

/-- DeviceEvent, in the order of its bits (41_codec.md R111). -/
inductive DeviceEvent where
  | stacked
  | returned
  | cheated
  | billRejected
  | powerUp
  | invalidCommandEvt
deriving DecidableEq, Repr

/-- The reason an InvalidCommand outcome carries (41_codec.md R102). -/
inductive Reason where
  | len
  | declaredLen
  | stx
  | etx
deriving DecidableEq, Repr

/-- The outcomes of 60_exceptions.md R180. -/
inductive OutcomeName where
  | ok
  | accepted
  | timeout
  | writeError
  | portError
  | ackMismatch
  | checksumError
  | invalidCommand
deriving DecidableEq, Repr

/-- What the response port returns for one operation: the outcome with the result fields the operation's rule
names, and no others (10_state.md R31, 60_exceptions.md R181). -/
inductive Response where
  /-- OK with no result field: INIT, REQ_RESET, TX_RESULT. -/
  | ok
  /-- OK of TX_SELECT: `tx_frame` and `tx_kind`. -/
  | tx (frame : TxFrame) (kind : TxKind)
  /-- OK of ENC_CMD and ENC_RESET: `frame`. -/
  | frame (f : TxFrame)
  /-- OK of CHECKSUM: `byte`. -/
  | byte (b : Byte)
  /-- OK of CHECKSUM_OK, ACK_MATCHES and DEC_CASHBOX: `bool`. -/
  | bool (b : Bool)
  /-- OK of DEC_RSP: the decoded record. -/
  | record (d : DecodedRecord)
  /-- OK of DEC_STATE. -/
  | state (st : DeviceState)
  /-- OK of DEC_EVENTS, as the 6-bit vector of R111. -/
  | events (e : BitVec 6)
  /-- OK of DEC_CREDIT. -/
  | credit (c : BitVec 3)
  /-- OK of DEC_DIAG. -/
  | diag (v : BitVec 5)
  /-- Accepted, of RX_RESULT (R154). -/
  | accepted (d : DecodedRecord) (st : DeviceState) (e : BitVec 6) (cashbox : Bool) (c : BitVec 3) (v : BitVec 5)
  /-- Timeout, of RX_RESULT. -/
  | timeout
  /-- WriteError, of TX_RESULT. -/
  | writeError
  /-- PortError, of TX_RESULT. -/
  | portError
  /-- AckMismatch, of RX_RESULT. -/
  | ackMismatch
  /-- ChecksumError, of RX_RESULT. -/
  | checksumError
  /-- InvalidCommand with its reason, of DEC_RSP and RX_RESULT. -/
  | invalidCommand (r : Reason)
deriving DecidableEq, Repr

/-- The block has no fault: "it is not a trap (the block has no trap mechanism)" (00_scope.md R12), and "every
operation completes in one step or is refused" (70_reset_and_hazards.md R212). So nothing raises one, and this
type has no constructor: safe. Log entry 12. -/
inductive Fault where
deriving DecidableEq, Repr

/-- Why an operation has no step (60_exceptions.md R187). Each is safe: the spec itself refuses, and the model
goes no further with the operation than the spec does. -/
inductive Refusal where
  /-- Raised by an arm of `exec` that has no meaning yet; none is left. Safe. -/
  | notModelled (mnemonic : String)
  /-- TX_SELECT outside IDLE, TX_RESULT outside TX_WAIT, RX_RESULT outside RX_WAIT (R187). Safe. -/
  | outOfPhase
  /-- A sequencer operation of R151 to R154 before the instance's first INIT (70_reset_and_hazards.md R200). Safe. -/
  | beforeInit
  /-- TX_RESULT with the reserved code 3 (R153, R187). Safe. -/
  | reservedWriteResult
  /-- An operand byte sequence longer than `N_MAX` (30_encoding.md R78). Safe. -/
  | sequenceTooLong
  /-- A DEC_* operation on a record that no DEC_RSP and no accepting RX_RESULT of the run returned (R77, R78). Safe. -/
  | recordNotProduced
  /-- A request whose bytes are no operation; raised by `step` with the decoder's reason (R187). Safe. -/
  | undecodable (e : DecodeError)
deriving DecidableEq, Repr

/-- One block instance with its ports. -/
structure State where
  /-- ACK, 1 bit (10_state.md R21). -/
  ack : Bit
  /-- RTX_PENDING, 1 bit (R22). -/
  rtxPending : Bool
  /-- LAST_TX, 8 bytes (R23). -/
  lastTx : TxFrame
  /-- RESET_REQ, 1 bit (R24). -/
  resetReq : Bool
  /-- PHASE, 2 bits (R25). -/
  phase : Phase
  /-- TX_KIND, 2 bits (R26). -/
  txKind : TxKind
  /-- LAST_STATE, 4 bits (R27). -/
  lastState : DeviceState
  /-- Whether the instance has had its first INIT (70_reset_and_hazards.md R200). -/
  initialised : Bool
  /-- The requests still to come, each its bytes, the next one first: the request port (10_state.md R30,
  20_memory.md R46). Log entry 4. -/
  requests : List (List Byte)
  /-- What the response port gave for the last request: nothing yet, or nothing because it was refused
  (10_state.md R31, 60_exceptions.md R180). The model's view of an output, no register (R28). Log entry 6. -/
  response : Option Response
  /-- The records returned so far in the run, without repeats, the latest first: what R77 lets a DEC_* operation
  be given. Log entry 9. -/
  produced : List DecodedRecord
  /-- The refusals recorded for the run, oldest first (60_exceptions.md R187). Log entry 5. -/
  refusals : List Refusal
  /-- The model's own counter of free values drawn for LAST_TX at INIT. Log entry 2. -/
  freeDraws : Nat
deriving DecidableEq, Repr

/-- The machine right after reset: "the block's only reset is the INIT operation" (70_reset_and_hazards.md R200),
so every register has the value INIT gives it (43_sequence.md R150), nothing is requested, returned or
recorded, and one free value has been drawn for LAST_TX. Log entries 1, 2, 3. -/
def State.reset : State where
  ack := Config.ackInit
  rtxPending := false
  lastTx := Config.freeFrame 0
  resetReq := false
  phase := .idle
  txKind := .fresh
  lastState := .offline
  initialised := true
  requests := []
  response := none
  produced := []
  refusals := []
  freeDraws := 1

/-- What running one operation gives. -/
abbrev StepResult := Host.Outcome State Fault Refusal

end Sys2Proof.Machine
end

