-- ==== Sys2Proof/Machine/Flags.lean ====
section
/-! DEFINITION. The codes by which the spec numbers what the model names (registers, outcomes, reasons, states,
event bits), and the outcome a response stands for. -/

namespace Sys2Proof.Machine

/-- PHASE's 2-bit encoding; "value 3 is unused and never reached" (10_state.md R25). -/
def phaseCode : Phase → BitVec 2
  | .idle => 0#2
  | .txWait => 1#2
  | .rxWait => 2#2

/-- TX_KIND's 2-bit encoding; value 3 is unused (10_state.md R26). -/
def txKindCode : TxKind → BitVec 2
  | .fresh => 0#2
  | .replay => 1#2
  | .reset => 2#2

/-- DeviceState's 4-bit codes, in increasing priority (41_codec.md R110). -/
def stateCode : DeviceState → BitVec 4
  | .offline => 0#4
  | .idling => 1#4
  | .accepting => 2#4
  | .escrowed => 3#4
  | .stacking => 4#4
  | .returning => 5#4
  | .billJammed => 6#4
  | .stackerFull => 7#4
  | .acceptorFailure => 8#4

/-- The bit of the 6-bit event vector that carries an event (41_codec.md R111). -/
def eventBit : DeviceEvent → Nat
  | .stacked => 0
  | .returned => 1
  | .cheated => 2
  | .billRejected => 3
  | .powerUp => 4
  | .invalidCommandEvt => 5

/-- The events of a 6-bit vector, as the set of R111, listed in bit order. -/
def eventSet (e : BitVec 6) : List DeviceEvent :=
  [.stacked, .returned, .cheated, .billRejected, .powerUp, .invalidCommandEvt].filter (fun v => e.getLsbD (eventBit v))

/-- The reason codes of InvalidCommand (41_codec.md R102). -/
def reasonCode : Reason → BitVec 2
  | .len => 0#2
  | .declaredLen => 1#2
  | .stx => 2#2
  | .etx => 3#2

/-- The 4-bit outcome codes (60_exceptions.md R180). -/
def outcomeCode : OutcomeName → BitVec 4
  | .ok => 0#4
  | .accepted => 1#4
  | .timeout => 2#4
  | .writeError => 3#4
  | .portError => 4#4
  | .ackMismatch => 5#4
  | .checksumError => 6#4
  | .invalidCommand => 7#4

/-- The outcome a response reports (60_exceptions.md R180, R181). -/
def outcomeOf : Response → OutcomeName
  | .ok => .ok
  | .tx _ _ => .ok
  | .frame _ => .ok
  | .byte _ => .ok
  | .bool _ => .ok
  | .record _ => .ok
  | .state _ => .ok
  | .events _ => .ok
  | .credit _ => .ok
  | .diag _ => .ok
  | .accepted _ _ _ _ _ _ => .accepted
  | .timeout => .timeout
  | .writeError => .writeError
  | .portError => .portError
  | .ackMismatch => .ackMismatch
  | .checksumError => .checksumError
  | .invalidCommand _ => .invalidCommand

end Sys2Proof.Machine
end

