-- ==== Sys2Proof/Machine/Operands.lean ====
section
/-! DEFINITION. Operands and bytes: reading a byte of a frame, a frame as its bytes, the control, enable and escrow
bytes a fresh frame packs, and the validity tests of 30_encoding.md R78 that come before anything else. -/

namespace Sys2Proof.Machine

/-- `f[i]` (00_scope.md R11). Every use is guarded by a length test (20_memory.md R40), so the value past the
end is never read. -/
def byteAt (f : List Byte) (i : Nat) : Byte := f.getD i 0#8

/-- The bytes of an 8-byte frame in index order (20_memory.md R41). -/
def frameBytes (f : TxFrame) : List Byte := [f.stx, f.len, f.ctrl, f.enable, f.escrow, f.rsvd, f.etx, f.chk]

/-- The length CHECKSUM_OK requires: 11 for RSP, 8 for CMD (42_validator.md R131). -/
def requiredLength : FrameKind → Nat
  | .cmd => Config.cmdLen
  | .rsp => Config.rspLen

/-- CTRL of a fresh command frame: `0x10 | ack` (30_encoding.md R61). -/
def commandCtrl (ack : Bit) : Byte := 0x10#8 ||| bitByte ack

/-- CTRL of a reset frame: `0x60 | ack` (30_encoding.md R65). -/
def resetCtrl (ack : Bit) : Byte := 0x60#8 ||| bitByte ack

/-- ENABLE of a fresh command frame: bit 7 of the operand dropped (30_encoding.md R62, 43_sequence.md R152). -/
def enableByte (en : Byte) : Byte := en &&& 0x7F#8

/-- ESCROW of a fresh command frame: `(mode << 4) | (stack << 5) | (reject << 6)` (30_encoding.md R63). -/
def escrowByte (mode stack reject : Bit) : Byte :=
  (bitByte mode <<< 4) ||| (bitByte stack <<< 5) ||| (bitByte reject <<< 6)

/-- The refusal of an operand byte sequence, if it is longer than `N_MAX` (30_encoding.md R78). -/
def seqRefusal (f : List Byte) : Option Refusal := if seqFits f then none else some .sequenceTooLong

/-- The refusal of a read result whose byte sequence is longer than `N_MAX` (R78). -/
def readRefusal : ReadResult → Option Refusal
  | .timeout => none
  | .bytes f => seqRefusal f

/-- The refusal of a TX_RESULT code 3 (R78, 43_sequence.md R153). -/
def writeResultRefusal (wres : BitVec 2) : Option Refusal := if wres = 3#2 then some .reservedWriteResult else none

/-- The refusal of a record not "returned by an earlier DEC_RSP or accepting RX_RESULT" of the run (R77, R78). -/
def recordRefusal (d : DecodedRecord) (s : State) : Option Refusal :=
  if d ∈ s.produced then none else some .recordNotProduced

/-- The refusal of an operation of R151 to R154 before the first INIT (70_reset_and_hazards.md R200). -/
def initRefusal (s : State) : Option Refusal := if s.initialised then none else some .beforeInit

/-- The refusal of an operation outside the PHASE its rule allows (60_exceptions.md R187). -/
def phaseRefusal (p : Phase) (s : State) : Option Refusal := if s.phase = p then none else some .outOfPhase

/-- An operation runs unless a test refuses it; then it has no step (60_exceptions.md R187). -/
def unlessRefused (r : Option Refusal) (k : StepResult) : StepResult :=
  match r with
  | none => k
  | some why => .refused why

/-- The records of a run after one more is returned: each stands once. -/
def noteRecord (d : DecodedRecord) (ds : List DecodedRecord) : List DecodedRecord :=
  if d ∈ ds then ds else d :: ds

end Sys2Proof.Machine
end

