-- ==== Sys2Proof/Machine/Ops.lean ====
section
/-! DEFINITION. The operations the meanings share: the checksum and its check, the ack comparison, the two encoders,
the decoder and its accessors (functions of frames and records alone), and the updates of the registers, with
the block's error entry (60_exceptions.md R185) and acceptance (R186) as one operation each. -/

namespace Sys2Proof.Machine

/-- `XOR(f[a..b])`, both ends included; `0x00` when `b < a` (00_scope.md R11). -/
def xorRange (f : List Byte) (a b : Nat) : Byte := ((f.drop a).take (b + 1 - a)).foldr (· ^^^ ·) 0#8

/-- CHECKSUM's value: `XOR(f[1..n-3])`, the span from LEN to the byte before ETX (42_validator.md R130). For a
frame shorter than 4 bytes the span is empty. -/
def checksumOf (f : List Byte) : Byte := xorRange f 1 (f.length - 3)

/-- CHECKSUM_OK's value: the required length, then the checksum byte (42_validator.md R131). -/
def checksumHolds (f : List Byte) (kind : FrameKind) : Bool :=
  if f.length ≠ requiredLength kind then false
  else xorRange f 1 (requiredLength kind - 3) == byteAt f (requiredLength kind - 1)

/-- ACK_MATCHES's value: bit 0 of byte 2 of both frames, false when either has no byte 2 (42_validator.md R132). -/
def ackBitsMatch (sent received : List Byte) : Bool :=
  if sent.length < 3 ∨ received.length < 3 then false
  else (byteAt sent 2 &&& 1#8) == (byteAt received 2 &&& 1#8)

/-- A frame with its checksum written to index 7 (30_encoding.md R60, R73). -/
def withChecksum (f : TxFrame) : TxFrame := { f with chk := checksumOf (frameBytes f) }

/-- ENC_CMD's frame: the operands unchanged, whatever their value (41_codec.md R100). -/
def commandFrame (ctrl en esc : Byte) : TxFrame :=
  withChecksum ⟨Config.stx, BitVec.ofNat 8 Config.cmdLen, ctrl, en, esc, 0x00#8, Config.etx, 0x00#8⟩

/-- ENC_RESET's frame, the fixed reset frame (41_codec.md R101). -/
def resetFrame (ack : Bit) : TxFrame :=
  withChecksum ⟨Config.stx, BitVec.ofNat 8 Config.cmdLen, resetCtrl ack, 0x7F#8, 0x7F#8, 0x7F#8, Config.etx, 0x00#8⟩

/-- DEC_RSP's result: the framing tests in the order of 41_codec.md R102, then the record of R103. -/
def decodeResponse (f : List Byte) : Except Reason DecodedRecord :=
  if f.length ≠ Config.rspLen then .error .len
  else if (byteAt f 1).toNat ≠ f.length then .error .declaredLen
  else if byteAt f 0 ≠ Config.stx then .error .stx
  else if byteAt f 9 ≠ Config.etx then .error .etx
  else .ok {
    ctrl := byteAt f 2
    ack := (byteAt f 2 &&& 1#8).setWidth 1
    payload := packPayload (byteAt f 3) (byteAt f 4) (byteAt f 5)
    rsv6 := byteAt f 6
    aux7 := byteAt f 7
    aux8 := byteAt f 8
    chk := byteAt f 10 }

/-- DEC_STATE's value: the state of the highest priority whose bit is set, else Offline (41_codec.md R104). -/
def deviceState (d : DecodedRecord) : DeviceState :=
  if d.payload.getLsbD 18 then .acceptorFailure
  else if d.payload.getLsbD 11 then .stackerFull
  else if d.payload.getLsbD 10 then .billJammed
  else if d.payload.getLsbD 5 then .returning
  else if d.payload.getLsbD 3 then .stacking
  else if d.payload.getLsbD 2 then .escrowed
  else if d.payload.getLsbD 1 then .accepting
  else if d.payload.getLsbD 0 then .idling
  else .offline

/-- The payload bit of each event (30_encoding.md R81, 41_codec.md R105). -/
def eventPayloadBit : DeviceEvent → Nat
  | .stacked => 4
  | .returned => 6
  | .cheated => 8
  | .billRejected => 9
  | .powerUp => 16
  | .invalidCommandEvt => 17

/-- DEC_EVENTS's value as the 6-bit vector of 41_codec.md R105, highest bit first. -/
def deviceEvents (d : DecodedRecord) : BitVec 6 :=
  BitVec.ofBool (d.payload.getLsbD (eventPayloadBit .invalidCommandEvt))
    ++ BitVec.ofBool (d.payload.getLsbD (eventPayloadBit .powerUp))
    ++ BitVec.ofBool (d.payload.getLsbD (eventPayloadBit .billRejected))
    ++ BitVec.ofBool (d.payload.getLsbD (eventPayloadBit .cheated))
    ++ BitVec.ofBool (d.payload.getLsbD (eventPayloadBit .returned))
    ++ BitVec.ofBool (d.payload.getLsbD (eventPayloadBit .stacked))

/-- DEC_CASHBOX's value (41_codec.md R106). -/
def cashboxPresent (d : DecodedRecord) : Bool := d.payload.getLsbD 12

/-- DEC_CREDIT's value: `payload[21:19]` (41_codec.md R107). -/
def creditIndex (d : DecodedRecord) : BitVec 3 := d.payload.extractLsb' 19 3

/-- DEC_DIAG's value `v[4:0]`, highest bit first: slave marker missing, byte 6 nonzero, STATUS, EVTERR and STATE
reserved bits set (41_codec.md R108). -/
def diagnostics (d : DecodedRecord) : BitVec 5 :=
  BitVec.ofBool ((d.ctrl &&& 0x20#8) == 0#8)
    ++ BitVec.ofBool (d.rsv6 != 0#8)
    ++ BitVec.ofBool (d.payload.extractLsb' 22 2 != 0#2)
    ++ BitVec.ofBool (d.payload.extractLsb' 13 3 != 0#3)
    ++ BitVec.ofBool (d.payload.getLsbD 7)

/-- The response port returns `r` (10_state.md R31); no register is written. -/
def State.answer (s : State) (r : Response) : State := { s with response := some r }

/-- A returned record may be an operand from now on (30_encoding.md R77). -/
def State.returnRecord (s : State) (d : DecodedRecord) : State := { s with produced := noteRecord d s.produced }

/-- The register writes of INIT (43_sequence.md R150); LAST_TX takes a fresh free value. -/
def State.initialise (s : State) : State :=
  { s with
    ack := Config.ackInit
    rtxPending := false
    lastTx := Config.freeFrame s.freeDraws
    resetReq := false
    phase := .idle
    txKind := .fresh
    lastState := .offline
    initialised := true
    freeDraws := s.freeDraws + 1 }

/-- The register write of REQ_RESET (43_sequence.md R151). -/
def State.requestReset (s : State) : State := { s with resetReq := true }

/-- TX_SELECT's reset path (43_sequence.md R152): the retained frame and its flag stay. -/
def State.startReset (s : State) : State :=
  { s with ack := ~~~s.ack, resetReq := false, txKind := .reset, phase := .txWait }

/-- TX_SELECT's replay path (43_sequence.md R152). -/
def State.startReplay (s : State) : State := { s with txKind := .replay, phase := .txWait }

/-- TX_SELECT's fresh path (43_sequence.md R152): the frame is retained in LAST_TX, all 8 bytes at once. -/
def State.startFresh (s : State) (f : TxFrame) : State :=
  { s with lastTx := f, txKind := .fresh, phase := .txWait }

/-- The frame was written and its response is awaited (43_sequence.md R153). -/
def State.awaitResponse (s : State) : State := { s with phase := .rxWait }

/-- A reset tick ends without a read, whatever the write result (43_sequence.md R153). -/
def State.endTick (s : State) : State := { s with phase := .idle }

/-- Error entry (60_exceptions.md R185): the sent frame is retained, ACK stays, the block returns to IDLE. -/
def State.retain (s : State) : State := { s with rtxPending := true, phase := .idle }

/-- Acceptance (43_sequence.md R154, 60_exceptions.md R186): the retransmit flag clears, ACK toggles and
LAST_STATE takes the decoded state. -/
def State.accept (s : State) (st : DeviceState) : State :=
  { s with rtxPending := false, ack := ~~~s.ack, lastState := st, phase := .idle }

/-- The frame a fresh tick builds from the operands and ACK (43_sequence.md R152). -/
def freshFrame (ack : Bit) (en : Byte) (mode stack reject : Bit) : TxFrame :=
  commandFrame (commandCtrl ack) (enableByte en) (escrowByte mode stack reject)

/-- An exchange of a fresh or replayed frame ends with an error outcome: error entry, then the answer (R185). -/
def failExchange (r : Response) (s : State) : StepResult := .next (s.retain.answer r)

/-- An exchange is Accepted: the answer carries all that 43_sequence.md R154 lists, and its record is returned. -/
def acceptExchange (d : DecodedRecord) (s : State) : StepResult :=
  .next (((s.accept (deviceState d)).returnRecord d).answer
    (.accepted d (deviceState d) (deviceEvents d) (cashboxPresent d) (creditIndex d) (diagnostics d)))

/-- The tests of RX_RESULT on a byte sequence, in the order of 60_exceptions.md R183. -/
def judgeResponse (f : List Byte) (s : State) : StepResult :=
  if f.length = 0 then failExchange .timeout s
  else if !ackBitsMatch (frameBytes s.lastTx) f then failExchange .ackMismatch s
  else if !checksumHolds f .rsp then failExchange .checksumError s
  else match decodeResponse f with
    | .error r => failExchange (.invalidCommand r) s
    | .ok d => acceptExchange d s

/-- The response that reports a write result exactly as given (60_exceptions.md R184). -/
def writeResponse (wres : BitVec 2) : Response :=
  if wres = 0#2 then .ok else if wres = 1#2 then .writeError else .portError

end Sys2Proof.Machine
end

