-- ==== Sys2Proof/Machine/Codec.lean ====
section
/-! DEFINITION. The codec operations of 41_codec.md: ENC_CMD, ENC_RESET, DEC_RSP and the five accessors. None reads
or writes a register, and each runs in every PHASE (R109) and before INIT (70_reset_and_hazards.md R201). -/

namespace Sys2Proof.Machine

/-- ENC_CMD (41_codec.md R100). -/
def execEncCmd (ctrl en esc : Byte) (s : State) : StepResult := .next (s.answer (.frame (commandFrame ctrl en esc)))

/-- ENC_RESET (41_codec.md R101). -/
def execEncReset (ack : Bit) (s : State) : StepResult := .next (s.answer (.frame (resetFrame ack)))

/-- DEC_RSP (41_codec.md R102): the record, which the run may use from now on, or InvalidCommand. -/
def execDecRsp (f : List Byte) (s : State) : StepResult :=
  unlessRefused (seqRefusal f) <|
  match decodeResponse f with
  | .error r => .next (s.answer (.invalidCommand r))
  | .ok d => .next ((s.returnRecord d).answer (.record d))

/-- DEC_STATE (41_codec.md R104). -/
def execDecState (d : DecodedRecord) (s : State) : StepResult :=
  unlessRefused (recordRefusal d s) (.next (s.answer (.state (deviceState d))))

/-- DEC_EVENTS (41_codec.md R105). -/
def execDecEvents (d : DecodedRecord) (s : State) : StepResult :=
  unlessRefused (recordRefusal d s) (.next (s.answer (.events (deviceEvents d))))

/-- DEC_CASHBOX (41_codec.md R106). -/
def execDecCashbox (d : DecodedRecord) (s : State) : StepResult :=
  unlessRefused (recordRefusal d s) (.next (s.answer (.bool (cashboxPresent d))))

/-- DEC_CREDIT (41_codec.md R107). -/
def execDecCredit (d : DecodedRecord) (s : State) : StepResult :=
  unlessRefused (recordRefusal d s) (.next (s.answer (.credit (creditIndex d))))

/-- DEC_DIAG (41_codec.md R108). -/
def execDecDiag (d : DecodedRecord) (s : State) : StepResult :=
  unlessRefused (recordRefusal d s) (.next (s.answer (.diag (diagnostics d))))

end Sys2Proof.Machine
end

