-- ==== Sys2Proof/Machine/Sequence.lean ====
section
/-! DEFINITION. The sequencer operations of 43_sequence.md: INIT, REQ_RESET, TX_SELECT, TX_RESULT, RX_RESULT.
Operand validity is tested first (30_encoding.md R78), then the first INIT (70_reset_and_hazards.md R200), then
PHASE (60_exceptions.md R187). -/

namespace Sys2Proof.Machine

/-- INIT (43_sequence.md R150): always OK, in every PHASE, before and after the first INIT. -/
def execInit (s : State) : StepResult := .next (s.initialise.answer .ok)

/-- REQ_RESET (43_sequence.md R151): in every PHASE, which it leaves alone. -/
def execReqReset (s : State) : StepResult :=
  unlessRefused (initRefusal s) (.next (s.requestReset.answer .ok))

/-- TX_SELECT (43_sequence.md R152): the reset frame, the retained frame or a fresh frame, in that order. -/
def execTxSelect (en : Byte) (mode stack reject : Bit) (s : State) : StepResult :=
  unlessRefused (initRefusal s) <|
  unlessRefused (phaseRefusal .idle s) <|
  if s.resetReq then .next (s.startReset.answer (.tx (resetFrame s.ack) .reset))
  else if s.rtxPending then .next (s.startReplay.answer (.tx s.lastTx .replay))
  else .next ((s.startFresh (freshFrame s.ack en mode stack reject)).answer
    (.tx (freshFrame s.ack en mode stack reject) .fresh))

/-- TX_RESULT (43_sequence.md R153): a reset tick ends here, a failed write retains the frame. -/
def execTxResult (wres : BitVec 2) (s : State) : StepResult :=
  unlessRefused (writeResultRefusal wres) <|
  unlessRefused (initRefusal s) <|
  unlessRefused (phaseRefusal .txWait s) <|
  if s.txKind = .reset then .next (s.endTick.answer (writeResponse wres))
  else if wres = 0#2 then .next (s.awaitResponse.answer (writeResponse wres))
  else failExchange (writeResponse wres) s

/-- RX_RESULT (43_sequence.md R154): Timeout, or the tests of the byte sequence. -/
def execRxResult (rx : ReadResult) (s : State) : StepResult :=
  unlessRefused (readRefusal rx) <|
  unlessRefused (initRefusal s) <|
  unlessRefused (phaseRefusal .rxWait s) <|
  match rx with
  | .timeout => failExchange .timeout s
  | .bytes f => judgeResponse f s

end Sys2Proof.Machine
end

