-- ==== Sys2Proof/Machine/Validator.lean ====
section
/-! DEFINITION. The validator operations of 42_validator.md: CHECKSUM, CHECKSUM_OK, ACK_MATCHES. None reads or writes
a register, and each runs in every PHASE (R133) and before INIT (70_reset_and_hazards.md R201). -/

namespace Sys2Proof.Machine

/-- CHECKSUM (42_validator.md R130). -/
def execChecksum (f : List Byte) (s : State) : StepResult :=
  unlessRefused (seqRefusal f) (.next (s.answer (.byte (checksumOf f))))

/-- CHECKSUM_OK (42_validator.md R131). -/
def execChecksumOk (f : List Byte) (kind : FrameKind) (s : State) : StepResult :=
  unlessRefused (seqRefusal f) (.next (s.answer (.bool (checksumHolds f kind))))

/-- ACK_MATCHES (42_validator.md R132): the two operands alone; ACK is not read. -/
def execAckMatches (sent received : List Byte) (s : State) : StepResult :=
  unlessRefused (seqRefusal sent) <|
  unlessRefused (seqRefusal received) <|
  .next (s.answer (.bool (ackBitsMatch sent received)))

end Sys2Proof.Machine
end

