-- ==== Sys2Proof/Machine/Dispatch.lean ====
section
/-! DEFINITION. One arm per operation, each a direct call of its meaning. -/

namespace Sys2Proof.Machine

def exec (i : Instr) (s : State) : Host.Outcome State Fault Refusal :=
  match i with
  | .init => Sys2Proof.Machine.execInit s
  | .reqReset => Sys2Proof.Machine.execReqReset s
  | .txSelect en mode stack reject => Sys2Proof.Machine.execTxSelect en mode stack reject s
  | .txResult wres => Sys2Proof.Machine.execTxResult wres s
  | .rxResult rx => Sys2Proof.Machine.execRxResult rx s
  | .encCmd ctrl en esc => Sys2Proof.Machine.execEncCmd ctrl en esc s
  | .encReset ack => Sys2Proof.Machine.execEncReset ack s
  | .checksum f => Sys2Proof.Machine.execChecksum f s
  | .checksumOk f kind => Sys2Proof.Machine.execChecksumOk f kind s
  | .ackMatches sent received => Sys2Proof.Machine.execAckMatches sent received s
  | .decRsp f => Sys2Proof.Machine.execDecRsp f s
  | .decState d => Sys2Proof.Machine.execDecState d s
  | .decEvents d => Sys2Proof.Machine.execDecEvents d s
  | .decCashbox d => Sys2Proof.Machine.execDecCashbox d s
  | .decCredit d => Sys2Proof.Machine.execDecCredit d s
  | .decDiag d => Sys2Proof.Machine.execDecDiag d s

end Sys2Proof.Machine
end

