-- ==== Sys2Proof/Machine/Requests.lean ====
section
/-! DEFINITION. The request port: taking the next request, running it, and recording a refusal for the run. -/

namespace Sys2Proof.Machine

/-- The queue after its first request is taken. -/
def State.leaveRequests (s : State) (rest : List (List Byte)) : State := { s with requests := rest }

/-- A refusal: "no register changes, no outcome is returned, and a model records a refusal for the run"
(60_exceptions.md R187). Log entry 5. -/
def State.refuse (s : State) (r : Refusal) : State :=
  { s with refusals := s.refusals ++ [r], response := none }

/-- What running an operation at `s` makes of the run: its next state, or `s` with the refusal recorded, so that the
requests that follow are still performed, as 95_test_vectors.md program P5 shows. Log entry 5. -/
def settle (s : State) : StepResult → StepResult
  | .next t => .next t
  | .fault r => .fault r
  | .refused r => .next (s.refuse r)

/-- One request performed at `s`: decoded, then run; bytes that are no operation are refused (R187). -/
def runRequest (bs : List Byte) (s : State) : StepResult :=
  match decode bs with
  | .error e => .next (s.refuse (.undecodable e))
  | .ok i => settle s (exec i s)

/-- A program of 30_encoding.md R80 given to the port, one request an operation. Log entry 4. -/
def State.withProgram (s : State) (ops : List Instr) : State := { s with requests := ops.map encode }

/-- The records an operation takes as operands (30_encoding.md R77). -/
def operandRecords : Instr → List DecodedRecord
  | .init => []
  | .reqReset => []
  | .txSelect _ _ _ _ => []
  | .txResult _ => []
  | .rxResult _ => []
  | .encCmd _ _ _ => []
  | .encReset _ => []
  | .checksum _ => []
  | .checksumOk _ _ => []
  | .ackMatches _ _ => []
  | .decRsp _ => []
  | .decState d => [d]
  | .decEvents d => [d]
  | .decCashbox d => [d]
  | .decCredit d => [d]
  | .decDiag d => [d]

/-- The records of the run, with the record operand of an operation about to be placed: a controller can place it
only if the block has returned that record (30_encoding.md R77, R80). Log entry 4. -/
def holdRecords (i : Option Instr) (ds : List DecodedRecord) : List DecodedRecord :=
  match i with
  | none => ds
  | some i => (operandRecords i).foldr noteRecord ds

/-- A table word's request placed at the head of the queue by a controller that holds its record operand. -/
def State.placeRequest (s : State) (nbits w : Nat) : State :=
  { s with
    requests := tableRequest nbits w :: s.requests
    produced := holdRecords (decodeTableWord nbits w) s.produced }

end Sys2Proof.Machine
end

