-- ==== Sys2Proof/Machine/Step.lean ====
section
/-! DEFINITION. One step of the machine: the next request of the port is performed, or, with none pending, the block
stays as it is (log entry 4); and the placing of a table word where a step takes its next request. -/

namespace Sys2Proof.Machine

/-- Requests are performed "one at a time in the order issued" (20_memory.md R46). -/
def step (s : State) : Host.Outcome State Fault Refusal :=
  match s.requests with
  | [] => .next s
  | bs :: rest => runRequest bs (s.leaveRequests rest)

/-- `s` with a table word as the request the next step performs. -/
def State.withFetchWord (s : State) (nbits w : Nat) : State := s.placeRequest nbits w

end Sys2Proof.Machine
end

