-- ==== Sys2Proof/Safety.lean ====
section
/-! DEFINITION. The words the statements use: when LAST_TX can still be read, what a fresh frame looks like, the
invariant of every run, the operations with no register effect, and paths of operations. -/

namespace Sys2Proof.Safety

open Sys2Proof.Machine

/-- LAST_TX can still be read: by a replay or by an ack comparison (10_state.md R23, R34). -/
def LastTxLive (s : State) : Prop :=
  s.rtxPending = true ∨ s.phase = .rxWait ∨ (s.phase = .txWait ∧ s.txKind ≠ .reset)

/-- A frame `[02 08 (0x10 | a) e s 00 03 c]` with `e <= 0x7F`, `s & 0x8F = 0` and `c` its checksum
(43_sequence.md R155 (c)). -/
structure IsCommandFrame (f : TxFrame) : Prop where
  stx    : f.stx = 0x02#8
  len    : f.len = 0x08#8
  ctrl   : f.ctrl = 0x10#8 ∨ f.ctrl = 0x11#8
  enable : f.enable.toNat ≤ 0x7F
  escrow : f.escrow &&& 0x8F#8 = 0x00#8
  rsvd   : f.rsvd = 0x00#8
  etx    : f.etx = 0x03#8
  chk    : f.chk = 0x08#8 ^^^ f.ctrl ^^^ f.enable ^^^ f.escrow

/-- The retained frame's ack bit is ACK wherever LAST_TX can still be read (43_sequence.md R155 (e)). -/
def AckAligned (s : State) : Prop := LastTxLive s → s.lastTx.ctrl &&& 0x01#8 = s.ack.setWidth 8

/-- What holds of an initialised instance in every state of a run (43_sequence.md R155 (a), (c), 41_codec.md R103). -/
structure RunInv (s : State) : Prop where
  rxKind   : s.initialised = true → s.phase = .rxWait → s.txKind ≠ .reset
  frame    : s.initialised = true → LastTxLive s → IsCommandFrame s.lastTx
  records  : ∀ d ∈ s.produced, ∃ f, decodeResponse f = .ok d
  distinct : s.produced.Nodup

/-- The operations of 41_codec.md and 42_validator.md (R109, R133). -/
def isPure : Instr → Bool
  | .init => false
  | .reqReset => false
  | .txSelect _ _ _ _ => false
  | .txResult _ => false
  | .rxResult _ => false
  | .encCmd _ _ _ => true
  | .encReset _ => true
  | .checksum _ => true
  | .checksumOk _ _ => true
  | .ackMatches _ _ => true
  | .decRsp _ => true
  | .decState _ => true
  | .decEvents _ => true
  | .decCashbox _ => true
  | .decCredit _ => true
  | .decDiag _ => true

/-- The seven registers of 10_state.md R20, and nothing else of the state. -/
structure Registers where
  ack : Bit
  rtxPending : Bool
  lastTx : TxFrame
  resetReq : Bool
  phase : Phase
  txKind : TxKind
  lastState : DeviceState
deriving DecidableEq, Repr

/-- The registers of a state. -/
def registers (s : State) : Registers :=
  ⟨s.ack, s.rtxPending, s.lastTx, s.resetReq, s.phase, s.txKind, s.lastState⟩

/-- The two states are the same, but for LAST_TX where nothing can read it any more. -/
def AgreeButUnread (s t : State) : Prop :=
  { s with lastTx := t.lastTx } = t ∧ (s.lastTx = t.lastTx ∨ ¬ LastTxLive s)

/-- The operation is a TX_SELECT that takes the reset path (43_sequence.md R152). -/
def isResetTick (i : Instr) (s : State) : Prop := (∃ en m k r, i = .txSelect en m k r) ∧ s.resetReq = true

/-- The outcome is Accepted (60_exceptions.md R180). -/
def wasAccepted (s : State) : Prop := s.response.map outcomeOf = some .accepted

/-- The outcome is one of the six errors of 60_exceptions.md R185. -/
def wasError (s : State) : Prop :=
  ∃ r, s.response = some r ∧ outcomeOf r ≠ .ok ∧ outcomeOf r ≠ .accepted

/-- The payload bit that sets a device state; Offline has none (30_encoding.md R69 to R71, R81). -/
def stateBit : DeviceState → Option Nat
  | .offline => none
  | .idling => some 0
  | .accepting => some 1
  | .escrowed => some 2
  | .stacking => some 3
  | .returning => some 5
  | .billJammed => some 10
  | .stackerFull => some 11
  | .acceptorFailure => some 18

/-- A path of completed operations, each allowed by `ok` at the state it starts from and the state it ends in. -/
inductive Path (ok : State → Instr → State → Prop) : State → State → Prop
  | refl (s : State) : Path ok s s
  | step {s t u : State} (i : Instr) : exec i s = .next t → ok s i t → Path ok t u → Path ok s u

end Sys2Proof.Safety
end

