-- ==== Sys2Proof/Certificates/Slice0/Obligations.lean ====
section
/-! DEFINITION. The statements for the provers. Where one rests on a decision the spec marks as its own, or on a choice
of the model, its docstring says so. -/

open Sys2Proof Sys2Proof.Machine Sys2Proof.Safety

/-! ## Encoding and the request port -/

/-- Decoding the encoding of a well-formed operation gives it back, with every operand (30_encoding.md §5). The OP
codes and byte encoding are the spec's own decisions D3 and D25; a record's bytes are the model's choice (log entry
8), as is the longest byte sequence, 254 bytes (log entry 7). -/
def Obligations.DecodeOfEncode : Prop :=
  ∀ i : Instr, i.wellFormed = true → decode (encode i) = .ok i

/-- A request has one meaning and one spelling: what decodes is well formed and encodes to the same bytes
(30_encoding.md §5; D3, D25; the model's refusal of every other spelling is log entry 11; that no byte sequence is
longer than 254 bytes is log entry 7). -/
def Obligations.EncodeOfDecode : Prop :=
  ∀ (bs : List Byte) (i : Instr), decode bs = .ok i → i.wellFormed = true ∧ encode i = bs

/-- Requests written out from R76, R77 and R80 and from the "enc" columns of 95_test_vectors.md §3 decode to the
operations they stand for. -/
def Obligations.SpecWordsDecode : Prop :=
  decode [0x00#8] = .ok .init ∧
  decode [0x01#8] = .ok .reqReset ∧
  decode [0x02#8, 0x7F#8, 0x01#8, 0x00#8, 0x00#8] = .ok (.txSelect 0x7F#8 1#1 0#1 0#1) ∧
  decode [0x03#8, 0x01#8] = .ok (.txResult 1#2) ∧
  decode [0x04#8, 0xFF#8] = .ok (.rxResult .timeout) ∧
  decode [0x04#8, 0x02#8, 0x02#8, 0x0B#8] = .ok (.rxResult (.bytes [0x02#8, 0x0B#8])) ∧
  decode [0x08#8, 0x10#8, 0x7F#8, 0x30#8] = .ok (.encCmd 0x10#8 0x7F#8 0x30#8) ∧
  decode [0x0B#8, 0x03#8, 0x02#8, 0x08#8, 0x03#8, 0x01#8] = .ok (.checksumOk [0x02#8, 0x08#8, 0x03#8] .rsp) ∧
  decode [0x0C#8, 0x01#8, 0x02#8, 0x00#8] = .ok (.ackMatches [0x02#8] []) ∧
  decode [0x10#8, 0x01#8, 0x02#8] = .ok (.decRsp [0x02#8])

/-- A reserved OP code, a reserved TX_RESULT code and an operand of the wrong shape are refused: the request is
dropped, the refusal recorded, nothing else changes (30_encoding.md §5, 60_exceptions.md §3; D3, D4; log entries 5,
11; that no byte sequence is longer than 254 bytes is log entry 7). -/
def Obligations.MalformedRequestsAreRefused : Prop :=
  (∀ (op : Byte) (rest : List Byte), op.toNat ∉ [0, 1, 2, 3, 4, 8, 9, 10, 11, 12, 16, 17, 18, 19, 20, 21] →
    decode (op :: rest) = .error (.reservedOp op)) ∧
  (∀ (b : Byte) (rest : List Byte), 3 ≤ b.toNat → decode (0x03#8 :: b :: rest) = .error (.reservedWriteResult b)) ∧
  (∀ (b : Byte) (rest : List Byte), 2 ≤ b.toNat → decode (0x09#8 :: b :: rest) = .error (.notOneBit b)) ∧
  (∀ rest : List Byte, decode (0x0A#8 :: 0xFF#8 :: rest) = .error .sequenceTooLong) ∧
  (∀ (s : State) (bs : List Byte) (rest : List (List Byte)) (e : DecodeError),
    s.requests = bs :: rest → decode bs = .error e →
    step s = .next { s with requests := rest, refusals := s.refusals ++ [.undecodable e], response := none })

/-- A step performs the operation its next request decodes to, at the state with that request taken; a refused operation
leaves that state, with the refusal recorded; with no request pending nothing changes (20_memory.md §2,
60_exceptions.md §3; that the run goes on after a refusal is log entry 5, that a step may find no request log entry 4). -/
def Obligations.StepPerformsTheDecodedOperation : Prop :=
  (∀ (s : State) (bs : List Byte) (rest : List (List Byte)) (i : Instr),
    s.requests = bs :: rest → decode bs = .ok i →
    (∀ t, exec i { s with requests := rest } = .next t → step s = .next t) ∧
    (∀ r, exec i { s with requests := rest } = .refused r →
      step s = .next { s with requests := rest, refusals := s.refusals ++ [r], response := none })) ∧
  (∀ s : State, s.requests = [] → step s = .next s)

/-- The block never stops on its own: every step goes on, takes exactly the next request and adds at most one refusal
(70_reset_and_hazards.md §3; log entry 5). -/
def Obligations.EveryStepGoesOn : Prop :=
  ∀ s : State, ∃ t, step s = .next t ∧ t.requests = s.requests.tail ∧
    (t.refusals = s.refusals ∨ ∃ r, t.refusals = s.refusals ++ [r])

/-- A refused request changes no register and returns no outcome (60_exceptions.md §3; D4, log entry 5). -/
def Obligations.RefusedRequestChangesNoRegister : Prop :=
  ∀ s t : State, step s = .next t → t.refusals ≠ s.refusals →
    registers t = registers s ∧ t.response = none ∧ t.initialised = s.initialised ∧
    t.produced = s.produced ∧ t.freeDraws = s.freeDraws

/-- Each operation completes exactly when the model, following the spec, lets it: INIT always; REQ_RESET once initialised; the
other sequencer operations in their PHASE with operands of the right shape; the pure operations in every state, given
operands of the right shape (30_encoding.md §5, 60_exceptions.md §3, 70_reset_and_hazards.md §1; D3, D4, D23). Two bounds
are the model's choice: that the longest byte sequence is 254 bytes (N_MAX, log entry 7), and that a record may be used
exactly while the run keeps it as returned (log entry 9). -/
def Obligations.OperationsCompleteExactlyWhenAllowed : Prop :=
  (∀ s, ∃ t, exec .init s = .next t) ∧
  (∀ s, (∃ t, exec .reqReset s = .next t) ↔ s.initialised = true) ∧
  (∀ en m k r s, (∃ t, exec (.txSelect en m k r) s = .next t) ↔ s.initialised = true ∧ s.phase = .idle) ∧
  (∀ w s, (∃ t, exec (.txResult w) s = .next t) ↔ w ≠ 3#2 ∧ s.initialised = true ∧ s.phase = .txWait) ∧
  (∀ s, (∃ t, exec (.rxResult .timeout) s = .next t) ↔ s.initialised = true ∧ s.phase = .rxWait) ∧
  (∀ f s, (∃ t, exec (.rxResult (.bytes f)) s = .next t) ↔
    f.length ≤ 254 ∧ s.initialised = true ∧ s.phase = .rxWait) ∧
  (∀ c en esc s, ∃ t, exec (.encCmd c en esc) s = .next t) ∧
  (∀ a s, ∃ t, exec (.encReset a) s = .next t) ∧
  (∀ f s, (∃ t, exec (.checksum f) s = .next t) ↔ f.length ≤ 254) ∧
  (∀ f k s, (∃ t, exec (.checksumOk f k) s = .next t) ↔ f.length ≤ 254) ∧
  (∀ f g s, (∃ t, exec (.ackMatches f g) s = .next t) ↔ f.length ≤ 254 ∧ g.length ≤ 254) ∧
  (∀ f s, (∃ t, exec (.decRsp f) s = .next t) ↔ f.length ≤ 254) ∧
  (∀ d s, (∃ t, exec (.decState d) s = .next t) ↔ d ∈ s.produced) ∧
  (∀ d s, (∃ t, exec (.decEvents d) s = .next t) ↔ d ∈ s.produced) ∧
  (∀ d s, (∃ t, exec (.decCashbox d) s = .next t) ↔ d ∈ s.produced) ∧
  (∀ d s, (∃ t, exec (.decCredit d) s = .next t) ↔ d ∈ s.produced) ∧
  (∀ d s, (∃ t, exec (.decDiag d) s = .next t) ↔ d ∈ s.produced)

/-- Why an operation is refused: an operand of the wrong shape before anything else, in every state; and in an initialised
instance, with operands of the right shape, a sequencer operation outside its PHASE (30_encoding.md §5, 60_exceptions.md §3;
D3, D4). The model's choices in it: the names of the reasons and their order (log entry 10), the bound of 254 bytes (N_MAX,
log entry 7), and the list of returned records that recordNotProduced is about (log entry 9). -/
def Obligations.RefusalsNameTheFirstReason : Prop :=
  (∀ s, exec (.txResult 3#2) s = .refused .reservedWriteResult) ∧
  (∀ f s, 254 < f.length →
    exec (.rxResult (.bytes f)) s = .refused .sequenceTooLong ∧
    exec (.checksum f) s = .refused .sequenceTooLong ∧
    (∀ k, exec (.checksumOk f k) s = .refused .sequenceTooLong) ∧
    (∀ g, exec (.ackMatches f g) s = .refused .sequenceTooLong) ∧
    (∀ g, exec (.ackMatches g f) s = .refused .sequenceTooLong) ∧
    exec (.decRsp f) s = .refused .sequenceTooLong) ∧
  (∀ d s, d ∉ s.produced →
    exec (.decState d) s = .refused .recordNotProduced ∧
    exec (.decEvents d) s = .refused .recordNotProduced ∧
    exec (.decCashbox d) s = .refused .recordNotProduced ∧
    exec (.decCredit d) s = .refused .recordNotProduced ∧
    exec (.decDiag d) s = .refused .recordNotProduced) ∧
  (∀ en m k r w rx s, s.initialised = true → w ≠ 3#2 → readFits rx = true →
    (s.phase ≠ .idle → exec (.txSelect en m k r) s = .refused .outOfPhase) ∧
    (s.phase ≠ .txWait → exec (.txResult w) s = .refused .outOfPhase) ∧
    (s.phase ≠ .rxWait → exec (.rxResult rx) s = .refused .outOfPhase))

/-- Before its first INIT an instance refuses REQ_RESET, TX_SELECT, TX_RESULT and RX_RESULT whatever its registers hold;
INIT initialises it, and no operation undoes that (70_reset_and_hazards.md §1; D23). That the recorded reason is beforeInit in
every PHASE, the reason's name and the place of this test before PHASE and after the operands' shape, is the model's choice
(log entry 10), as is the bound of 254 bytes in readFits (log entry 7). -/
def Obligations.SequencerWaitsForInit : Prop :=
  (∀ en m k r w rx s, s.initialised = false → w ≠ 3#2 → readFits rx = true →
    exec .reqReset s = .refused .beforeInit ∧
    exec (.txSelect en m k r) s = .refused .beforeInit ∧
    exec (.txResult w) s = .refused .beforeInit ∧
    exec (.rxResult rx) s = .refused .beforeInit) ∧
  (∀ i s t, exec i s = .next t → (t.initialised = true ↔ s.initialised = true ∨ i = .init))

/-! ## The codec -/

/-- ENC_CMD builds `[02 08 ctrl en esc 00 03 c]` from its operands unchanged and writes nothing but the response
(41_codec.md §2; that no operand is masked is the spec's decision D14). -/
def Obligations.EncCmdBuildsTheFrame : Prop :=
  ∀ (ctrl en esc : Byte) (s : State),
    exec (.encCmd ctrl en esc) s = .next { s with response := some (.frame
      ⟨0x02#8, 0x08#8, ctrl, en, esc, 0x00#8, 0x03#8, 0x08#8 ^^^ ctrl ^^^ en ^^^ esc⟩) } ∧
    encode (.encCmd ctrl en esc) = [0b01000#8, ctrl, en, esc]

/-- ENC_RESET (41_codec.md R101): only two frames exist, the outcome is OK, and nothing but the response is written. -/
def Obligations.EncResetBuildsTheFixedFrame : Prop :=
  ∀ s : State,
    exec (.encReset 0#1) s = .next { s with response := some (.frame
      ⟨0x02#8, 0x08#8, 0x60#8, 0x7F#8, 0x7F#8, 0x7F#8, 0x03#8, 0x17#8⟩) } ∧
    exec (.encReset 1#1) s = .next { s with response := some (.frame
      ⟨0x02#8, 0x08#8, 0x61#8, 0x7F#8, 0x7F#8, 0x7F#8, 0x03#8, 0x16#8⟩) } ∧
    (∀ a : Bit, ∃ f, exec (.encReset a) s = .next { s with response := some (.frame f) } ∧
      f.ctrl = 0x60#8 ||| a.setWidth 8 ∧ f.ctrl.getLsbD 4 = false ∧
      frameBytes f = [0x02#8, 0x08#8, 0x60#8 ||| a.setWidth 8, 0x7F#8, 0x7F#8, 0x7F#8, 0x03#8,
        checksumOf [0x02#8, 0x08#8, 0x60#8 ||| a.setWidth 8, 0x7F#8, 0x7F#8, 0x7F#8, 0x03#8, 0x00#8]] ∧
      outcomeOf (.frame f) = .ok) ∧
    encode (.encReset 0#1) = [0b01001#8, 0x00#8] ∧ encode (.encReset 1#1) = [0b01001#8, 0x01#8]

/-- DEC_RSP: the framing tests in their order, the record of the bytes, and the record usable from then on
(41_codec.md §3; the STX and ETX tests are the spec's decision D6, the packing D5; that returned records are kept is
log entry 9; that no byte sequence is longer than 254 bytes is log entry 7). -/
def Obligations.DecRspValidatesAndUnpacks : Prop :=
  ∀ s : State,
    (∀ f : List Byte, f.length ≤ 254 → f.length ≠ 11 →
      exec (.decRsp f) s = .next { s with response := some (.invalidCommand .len) }) ∧
    (∀ f0 f1 f2 f3 f4 f5 f6 f7 f8 f9 f10 : Byte,
      (f1 ≠ 0x0B#8 → exec (.decRsp [f0, f1, f2, f3, f4, f5, f6, f7, f8, f9, f10]) s =
        .next { s with response := some (.invalidCommand .declaredLen) }) ∧
      (f1 = 0x0B#8 → f0 ≠ 0x02#8 → exec (.decRsp [f0, f1, f2, f3, f4, f5, f6, f7, f8, f9, f10]) s =
        .next { s with response := some (.invalidCommand .stx) }) ∧
      (f1 = 0x0B#8 → f0 = 0x02#8 → f9 ≠ 0x03#8 → exec (.decRsp [f0, f1, f2, f3, f4, f5, f6, f7, f8, f9, f10]) s =
        .next { s with response := some (.invalidCommand .etx) }) ∧
      (f1 = 0x0B#8 → f0 = 0x02#8 → f9 = 0x03#8 → exec (.decRsp [f0, f1, f2, f3, f4, f5, f6, f7, f8, f9, f10]) s =
        .next { s with
          response := some (.record ⟨f2, f2.setWidth 1, f5 ++ f4 ++ f3, f6, f7, f8, f10⟩)
          produced := if (⟨f2, f2.setWidth 1, f5 ++ f4 ++ f3, f6, f7, f8, f10⟩ : DecodedRecord) ∈ s.produced
            then s.produced else ⟨f2, f2.setWidth 1, f5 ++ f4 ++ f3, f6, f7, f8, f10⟩ :: s.produced }))

/-- DEC_STATE answers the state of the highest priority whose bit is set, Offline when none is, and writes nothing but
the response (41_codec.md §1, §3; the codes are the spec's decision D16, Offline D8; which records the run has
returned is log entry 9). -/
def Obligations.DecStatePicksTheHighestPriority : Prop :=
  ∀ (d : DecodedRecord) (s : State), d ∈ s.produced →
    ∃ st, exec (.decState d) s = .next { s with response := some (.state st) } ∧
      (∀ k, stateBit st = some k → d.payload.getLsbD k = true) ∧
      (∀ st' k, stateBit st' = some k → d.payload.getLsbD k = true → (stateCode st').toNat ≤ (stateCode st).toNat)

/-- DEC_EVENTS answers the set of the events whose payload bits are set, whatever state they sit beside, and writes
nothing but the response (41_codec.md §1, §3; the order of the vector's bits is the spec's decision D16; which records
the run has returned is log entry 9). -/
def Obligations.DecEventsGathersTheEventBits : Prop :=
  ∀ (d : DecodedRecord) (s : State), d ∈ s.produced →
    ∃ e, exec (.decEvents d) s = .next { s with response := some (.events e) } ∧
      e.getLsbD 0 = d.payload.getLsbD 4 ∧ e.getLsbD 1 = d.payload.getLsbD 6 ∧
      e.getLsbD 2 = d.payload.getLsbD 8 ∧ e.getLsbD 3 = d.payload.getLsbD 9 ∧
      e.getLsbD 4 = d.payload.getLsbD 16 ∧ e.getLsbD 5 = d.payload.getLsbD 17 ∧
      (∀ v, v ∈ eventSet e ↔ d.payload.getLsbD (match v with
        | .stacked => 4 | .returned => 6 | .cheated => 8 | .billRejected => 9 | .powerUp => 16
        | .invalidCommandEvt => 17) = true)

/-- DEC_CASHBOX (41_codec.md R106): payload bit 12, which is bit 4 of EVTERR, whatever the state and event bits; the outcome
is OK and nothing but the response is written. -/
def Obligations.DecCashboxReadsItsBit : Prop :=
  (∀ (d : DecodedRecord) (s : State), d ∈ s.produced →
    exec (.decCashbox d) s = .next { s with response := some (.bool (d.payload.getLsbD 12)) } ∧
    outcomeOf (.bool (d.payload.getLsbD 12)) = .ok ∧ (encode (.decCashbox d)).head? = some 0b10011#8) ∧
  (∀ (c f3 f4 f5 f6 f7 f8 f10 : Byte) (s t : State) (d : DecodedRecord),
    exec (.decRsp [0x02#8, 0x0B#8, c, f3, f4, f5, f6, f7, f8, 0x03#8, f10]) s = .next t →
    t.response = some (.record d) →
    exec (.decCashbox d) t = .next { t with response := some (.bool (f4.getLsbD 4)) } ∧
    f4.getLsbD 4 = ((f4 &&& 0x10#8) != 0x00#8))

/-- DEC_CREDIT (41_codec.md R107): payload bits 21:19, which equal `(STATUS & 0x38) >> 3`, whatever the other STATUS bits; the
outcome is OK and nothing but the response is written. -/
def Obligations.DecCreditReadsItsField : Prop :=
  (∀ (d : DecodedRecord) (s : State), d ∈ s.produced →
    ∃ c : BitVec 3, exec (.decCredit d) s = .next { s with response := some (.credit c) } ∧
      c.toNat = d.payload.toNat / 2 ^ 19 % 8 ∧ outcomeOf (.credit c) = .ok ∧
      (encode (.decCredit d)).head? = some 0b10100#8) ∧
  (∀ (c f3 f4 f5 f6 f7 f8 f10 : Byte) (s t : State) (d : DecodedRecord),
    exec (.decRsp [0x02#8, 0x0B#8, c, f3, f4, f5, f6, f7, f8, 0x03#8, f10]) s = .next t →
    t.response = some (.record d) →
    exec (.decCredit d) t = .next { t with response := some (.credit (((f5 &&& 0x38#8) >>> 3).setWidth 3)) })

/-- DEC_DIAG reports reserved bits set and a missing slave marker, and writes nothing but the response (41_codec.md
§3; which bits are reserved and the order of the vector's bits are the spec's decision D7; which records the run has
returned is log entry 9). -/
def Obligations.DecDiagReportsReservedBits : Prop :=
  ∀ (d : DecodedRecord) (s : State), d ∈ s.produced →
    ∃ v, exec (.decDiag d) s = .next { s with response := some (.diag v) } ∧
      v.getLsbD 0 = d.payload.getLsbD 7 ∧
      v.getLsbD 1 = (d.payload.getLsbD 13 || d.payload.getLsbD 14 || d.payload.getLsbD 15) ∧
      v.getLsbD 2 = (d.payload.getLsbD 22 || d.payload.getLsbD 23) ∧
      (v.getLsbD 3 = true ↔ d.rsv6 ≠ 0x00#8) ∧
      v.getLsbD 4 = !d.ctrl.getLsbD 5

/-- DEC_STATE, DEC_EVENTS, DEC_CASHBOX and DEC_CREDIT read only the payload; DEC_DIAG reads the control byte and byte
6 as well (41_codec.md §4, a rule the spec derives; which records the run has returned is log entry 9). -/
def Obligations.AccessorsReadOnlyThePayload : Prop :=
  ∀ (d d' : DecodedRecord) (s : State), d ∈ s.produced → d' ∈ s.produced → d.payload = d'.payload →
    exec (.decState d) s = exec (.decState d') s ∧
    exec (.decEvents d) s = exec (.decEvents d') s ∧
    exec (.decCashbox d) s = exec (.decCashbox d') s ∧
    exec (.decCredit d) s = exec (.decCredit d') s ∧
    (d.ctrl = d'.ctrl → d.rsv6 = d'.rsv6 → exec (.decDiag d) s = exec (.decDiag d') s)

/-- The codec and validator operations write no register, give the same answer for the same operands in every state and
PHASE, and may be issued in any (41_codec.md §4, 42_validator.md). What the run keeps of the ports is no register: the
response (log entry 6) and the records returned. That a DEC_* operation runs on exactly those records, and that they stay,
is the model's choice (log entry 9); the bound on byte sequences in wellFormed is too (log entry 7). -/
def Obligations.PureOperationsTouchNoRegister : Prop :=
  (∀ (i : Instr) (s t : State), isPure i = true → exec i s = .next t →
    registers t = registers s ∧
    t = { s with response := t.response, produced := t.produced } ∧
    (∀ d, d ∈ s.produced → d ∈ t.produced) ∧
    (∀ s' t', exec i s' = .next t' → t'.response = t.response)) ∧
  (∀ (i : Instr) (s : State), isPure i = true → i.wellFormed = true → (∀ d ∈ operandRecords i, d ∈ s.produced) →
    ∃ t, exec i s = .next t)

/-- Every pure operation is idempotent: issued again at once it changes nothing (20_memory.md §1). -/
def Obligations.PureOperationsAreIdempotent : Prop :=
  ∀ (i : Instr) (s t : State), isPure i = true → exec i s = .next t → exec i t = .next t

/-! ## The validator -/

/-- CHECKSUM is the XOR of the bytes from LEN to the one before ETX, whatever STX, ETX and the checksum slot hold, and
0x00 for a frame shorter than 4 bytes; it writes nothing but the response (42_validator.md R130; the short frames are
the spec's decision D28; that no byte sequence is longer than 254 bytes is log entry 7). -/
def Obligations.ChecksumXorsTheDataSpan : Prop :=
  (∀ (stx etx chk : Byte) (span : List Byte) (s : State), span.length + 3 ≤ 254 →
    exec (.checksum (stx :: span ++ [etx, chk])) s =
      .next { s with response := some (.byte (span.foldr (fun a b => a ^^^ b) 0x00#8)) }) ∧
  (∀ (f : List Byte) (s : State), f.length < 4 →
    exec (.checksum f) s = .next { s with response := some (.byte 0x00#8) })

/-- CHECKSUM_OK answers true exactly for a frame of the kind's length whose last byte is the XOR of its span; it
writes nothing but the response (42_validator.md R131; the `kind` operand is the spec's decision D18; that no byte
sequence is longer than 254 bytes is log entry 7). -/
def Obligations.ChecksumOkChecksLengthAndSum : Prop :=
  ∀ (f : List Byte) (kind : FrameKind) (s : State), f.length ≤ 254 →
    ∃ b, exec (.checksumOk f kind) s = .next { s with response := some (.bool b) } ∧
      (b = true ↔ ∃ (stx etx : Byte) (span : List Byte),
        f = stx :: span ++ [etx, span.foldr (fun a b => a ^^^ b) 0x00#8] ∧
        span.length = (match kind with | .cmd => 5 | .rsp => 8))

/-- ACK_MATCHES compares bit 0 of byte 2 of its two operands, answers false when either has no byte 2, and neither
reads ACK nor writes anything but the response (42_validator.md R132; the short frames are the spec's decision D9;
that no byte sequence is longer than 254 bytes is log entry 7). -/
def Obligations.AckMatchesComparesAckBits : Prop :=
  ∀ (sent received : List Byte) (s : State), sent.length ≤ 254 → received.length ≤ 254 →
    ∃ b, exec (.ackMatches sent received) s = .next { s with response := some (.bool b) } ∧
      (b = true ↔ ∃ (x0 x1 x2 y0 y1 y2 : Byte) (xs ys : List Byte),
        sent = x0 :: x1 :: x2 :: xs ∧ received = y0 :: y1 :: y2 :: ys ∧ x2.getLsbD 0 = y2.getLsbD 0)

/-- The frames of ENC_CMD, for all operands, and of ENC_RESET pass CHECKSUM_OK with kind CMD (41_codec.md §4, a rule the spec
derives). -/
def Obligations.EncodedFramesPassTheirCheck : Prop :=
  (∀ (ctrl en esc : Byte) (s t : State), exec (.encCmd ctrl en esc) s = .next t →
    ∃ f, t.response = some (.frame f) ∧
      exec (.checksumOk (frameBytes f) .cmd) t = .next { t with response := some (.bool true) }) ∧
  (∀ (a : Bit) (s t : State), exec (.encReset a) s = .next t →
    ∃ f, t.response = some (.frame f) ∧
      exec (.checksumOk (frameBytes f) .cmd) t = .next { t with response := some (.bool true) })

/-- Every single-bit change of a byte the checksum covers, or of the checksum byte, is detected, for responses and for commands
(42_validator.md R134, which the spec derives). -/
def Obligations.SingleBitErrorsAreDetected : Prop :=
  ∀ (f : List Byte) (kind : FrameKind) (s : State) (j k : Nat),
    exec (.checksumOk f kind) s = .next { s with response := some (.bool true) } →
    (1 ≤ j ∧ j + 3 ≤ requiredLength kind ∨ j + 1 = requiredLength kind) → k < 8 →
    exec (.checksumOk (f.set j (f.getD j 0x00#8 ^^^ (0x01#8 <<< k))) kind) s =
      .next { s with response := some (.bool false) }

/-- What CHECKSUM_OK does not see: a change of STX or ETX, a reordering of the covered bytes, and one bit position
flipped in two of the covered bytes or in one and the checksum byte (42_validator.md R135, which the spec derives;
that no byte sequence is longer than 254 bytes is log entry 7). -/
def Obligations.ChecksumMissesTheseErrors : Prop :=
  (∀ (x x' y y' chk : Byte) (span span' : List Byte) (kind : FrameKind) (s : State),
    span.Perm span' → span.length + 3 ≤ 254 →
    exec (.checksumOk (x :: span ++ [y, chk]) kind) s = exec (.checksumOk (x' :: span' ++ [y', chk]) kind) s) ∧
  (∀ (f : List Byte) (kind : FrameKind) (s : State) (j j' : Nat) (m : Byte), f.length ≤ 254 →
    1 ≤ j → j < j' → j + 3 ≤ requiredLength kind →
    (j' + 3 ≤ requiredLength kind ∨ j' + 1 = requiredLength kind) →
    exec (.checksumOk ((f.set j (f.getD j 0x00#8 ^^^ m)).set j' (f.getD j' 0x00#8 ^^^ m)) kind) s =
      exec (.checksumOk f kind) s)

/-! ## The sequencer -/

/-- INIT in any state: every register takes its reset value, LAST_TX any value, and the outcome is OK (43_sequence.md R150; the
values are the spec's decisions D1 and D23, LAST_TX a free value of log entry 2). -/
def Obligations.InitResetsTheInstance : Prop :=
  ∀ s : State, ∃ f : TxFrame, exec .init s = .next { s with
    ack := Config.ackInit, rtxPending := false, lastTx := f, resetReq := false, phase := .idle, txKind := .fresh,
    lastState := .offline, initialised := true, response := some .ok, freeDraws := s.freeDraws + 1 }

/-- The state after reset (70_reset_and_hazards.md §1): the registers INIT gives, nothing requested, returned or recorded
(D1, D23; log entries 1, 2, 3). -/
def Obligations.ResetStateIsAFreshSession : Prop :=
  State.reset.ack = Config.ackInit ∧ State.reset.rtxPending = false ∧ State.reset.resetReq = false ∧
  State.reset.phase = .idle ∧ State.reset.txKind = .fresh ∧ State.reset.lastState = .offline ∧
  State.reset.initialised = true ∧ State.reset.requests = [] ∧ State.reset.response = none ∧
  State.reset.produced = [] ∧ State.reset.refusals = []

/-- REQ_RESET (43_sequence.md R151): it sets RESET_REQ and nothing else, in every PHASE, with outcome OK; issued again it changes
nothing more; a write or read result that follows gives what it gives without it, RESET_REQ apart; and the next
TX_SELECT sends one reset frame and clears it. -/
def Obligations.ReqResetSetsTheFlagOnly : Prop :=
  (∀ s, s.initialised = true → exec .reqReset s = .next { s with resetReq := true, response := some .ok }) ∧
  (∀ s t, exec .reqReset s = .next t → exec .reqReset t = .next t) ∧
  (∀ (i : Instr) (s t : State), (∃ w, i = .txResult w) ∨ (∃ rx, i = .rxResult rx) →
    exec i s = .next t → exec i { s with resetReq := true } = .next { t with resetReq := true }) ∧
  (∀ en m k r s t, s.resetReq = true → exec (.txSelect en m k r) s = .next t →
    t.resetReq = false ∧ t.txKind = .reset) ∧
  encode .reqReset = [0b00001#8]

/-- TX_SELECT in IDLE: the reset frame with the ack bit from before the toggle; else the retained frame unchanged; else a fresh
frame from the operands. Each writes what is listed and nothing else (43_sequence.md R152; the reset path's effects are
the spec's decision D12, the dropped bit 7 D13, stack and reject together D30). -/
def Obligations.TxSelectChoosesTheFrame : Prop :=
  ∀ (en : Byte) (mode stack reject : Bit) (s : State), s.initialised = true → s.phase = .idle →
    (s.resetReq = true → exec (.txSelect en mode stack reject) s = .next { s with
      ack := ~~~s.ack, resetReq := false, txKind := .reset, phase := .txWait
      response := some (.tx (if s.ack = 0#1
        then ⟨0x02#8, 0x08#8, 0x60#8, 0x7F#8, 0x7F#8, 0x7F#8, 0x03#8, 0x17#8⟩
        else ⟨0x02#8, 0x08#8, 0x61#8, 0x7F#8, 0x7F#8, 0x7F#8, 0x03#8, 0x16#8⟩) .reset) }) ∧
    (s.resetReq = false → s.rtxPending = true → exec (.txSelect en mode stack reject) s = .next { s with
      txKind := .replay, phase := .txWait, response := some (.tx s.lastTx .replay) }) ∧
    (s.resetReq = false → s.rtxPending = false → ∃ f : TxFrame,
      exec (.txSelect en mode stack reject) s = .next { s with
        lastTx := f, txKind := .fresh, phase := .txWait, response := some (.tx f .fresh) } ∧
      f.stx = 0x02#8 ∧ f.len = 0x08#8 ∧ f.ctrl.toNat = 0x10 + s.ack.toNat ∧
      f.enable.toNat = en.toNat % 128 ∧
      f.escrow.toNat = 16 * mode.toNat + 32 * stack.toNat + 64 * reject.toNat ∧
      f.rsvd = 0x00#8 ∧ f.etx = 0x03#8 ∧ f.chk = 0x08#8 ^^^ f.ctrl ^^^ f.enable ^^^ f.escrow)

/-- TX_RESULT in TX_WAIT: a reset tick ends in IDLE with the result reported and nothing retained; a good write waits for the
response; a failed write retains the frame. Each writes what is listed and nothing else (43_sequence.md R153; the reset
tick is the spec's decision D12). -/
def Obligations.TxResultEndsOrContinuesTheTick : Prop :=
  ∀ s : State, s.initialised = true → s.phase = .txWait →
    (s.txKind = .reset →
      exec (.txResult 0#2) s = .next { s with phase := .idle, response := some .ok } ∧
      exec (.txResult 1#2) s = .next { s with phase := .idle, response := some .writeError } ∧
      exec (.txResult 2#2) s = .next { s with phase := .idle, response := some .portError }) ∧
    (s.txKind ≠ .reset →
      exec (.txResult 0#2) s = .next { s with phase := .rxWait, response := some .ok } ∧
      exec (.txResult 1#2) s = .next { s with phase := .idle, rtxPending := true, response := some .writeError } ∧
      exec (.txResult 2#2) s = .next { s with phase := .idle, rtxPending := true, response := some .portError })

/-- RX_RESULT's failures, in their order: no bytes, no matching ack bit, no good checksum, no good framing. Each
retains the frame, returns to IDLE and writes nothing else (43_sequence.md R154, 60_exceptions.md §2; the treatment of
short reads is the spec's decision D9 and D10, of bad framing D11; that no byte sequence is longer than 254 bytes is
log entry 7). -/
def Obligations.RxResultFailuresInOrder : Prop :=
  ∀ s : State, s.initialised = true → s.phase = .rxWait →
    exec (.rxResult .timeout) s = .next { s with rtxPending := true, phase := .idle, response := some .timeout } ∧
    exec (.rxResult (.bytes [])) s = .next { s with rtxPending := true, phase := .idle, response := some .timeout } ∧
    (∀ f : List Byte, f ≠ [] → f.length ≤ 254 →
      (f.length < 3 ∨ (f.getD 2 0x00#8).getLsbD 0 ≠ s.lastTx.ctrl.getLsbD 0) →
      exec (.rxResult (.bytes f)) s =
        .next { s with rtxPending := true, phase := .idle, response := some .ackMismatch }) ∧
    (∀ f : List Byte, 3 ≤ f.length → f.length ≤ 254 → (f.getD 2 0x00#8).getLsbD 0 = s.lastTx.ctrl.getLsbD 0 →
      (¬ ∃ (x0 x9 : Byte) (span : List Byte), span.length = 8 ∧
        f = x0 :: span ++ [x9, span.foldr (fun a b => a ^^^ b) 0x00#8]) →
      exec (.rxResult (.bytes f)) s =
        .next { s with rtxPending := true, phase := .idle, response := some .checksumError }) ∧
    (∀ x0 x1 c b3 b4 b5 b6 b7 b8 x9 chk : Byte, c.getLsbD 0 = s.lastTx.ctrl.getLsbD 0 →
      chk = x1 ^^^ c ^^^ b3 ^^^ b4 ^^^ b5 ^^^ b6 ^^^ b7 ^^^ b8 →
      (x1 ≠ 0x0B#8 → exec (.rxResult (.bytes [x0, x1, c, b3, b4, b5, b6, b7, b8, x9, chk])) s =
        .next { s with rtxPending := true, phase := .idle, response := some (.invalidCommand .declaredLen) }) ∧
      (x1 = 0x0B#8 → x0 ≠ 0x02#8 → exec (.rxResult (.bytes [x0, x1, c, b3, b4, b5, b6, b7, b8, x9, chk])) s =
        .next { s with rtxPending := true, phase := .idle, response := some (.invalidCommand .stx) }) ∧
      (x1 = 0x0B#8 → x0 = 0x02#8 → x9 ≠ 0x03#8 →
        exec (.rxResult (.bytes [x0, x1, c, b3, b4, b5, b6, b7, b8, x9, chk])) s =
          .next { s with rtxPending := true, phase := .idle, response := some (.invalidCommand .etx) }))

/-- RX_RESULT accepts exactly the well-framed responses with the sent ack bit and a good checksum; it then clears RTX_PENDING,
toggles ACK, keeps the decoded state, returns to IDLE, reports what the accessors give, and writes nothing else
(43_sequence.md R154; the toggle is the spec's decision D29; the records kept are log entry 9). -/
def Obligations.RxResultAcceptsGoodResponses : Prop :=
  (∀ (c b3 b4 b5 b6 b7 b8 chk : Byte) (d : DecodedRecord) (s : State), s.initialised = true → s.phase = .rxWait →
    c.getLsbD 0 = s.lastTx.ctrl.getLsbD 0 →
    chk = 0x0B#8 ^^^ c ^^^ b3 ^^^ b4 ^^^ b5 ^^^ b6 ^^^ b7 ^^^ b8 →
    d = ⟨c, c.setWidth 1, b5 ++ b4 ++ b3, b6, b7, b8, chk⟩ →
    exec (.rxResult (.bytes [0x02#8, 0x0B#8, c, b3, b4, b5, b6, b7, b8, 0x03#8, chk])) s = .next { s with
      rtxPending := false, ack := ~~~s.ack, lastState := deviceState d, phase := .idle
      produced := if d ∈ s.produced then s.produced else d :: s.produced
      response := some (.accepted d (deviceState d) (deviceEvents d) (cashboxPresent d) (creditIndex d)
        (diagnostics d)) }) ∧
  (∀ (rx : ReadResult) (s t : State), exec (.rxResult rx) s = .next t → wasAccepted t →
    ∃ c b3 b4 b5 b6 b7 b8 : Byte, c.getLsbD 0 = s.lastTx.ctrl.getLsbD 0 ∧
      rx = .bytes [0x02#8, 0x0B#8, c, b3, b4, b5, b6, b7, b8, 0x03#8,
        0x0B#8 ^^^ c ^^^ b3 ^^^ b4 ^^^ b5 ^^^ b6 ^^^ b7 ^^^ b8])

/-- An accepted response's record, state, events, cashbox bit, credit index and diagnostics are what the DEC_* operations answer
on that record afterwards, and LAST_STATE is that state (43_sequence.md §1, 41_codec.md §3). -/
def Obligations.AcceptedReportsWhatTheAccessorsGive : Prop :=
  ∀ (rx : ReadResult) (s t : State) (d : DecodedRecord) (st : DeviceState) (e : BitVec 6) (b : Bool) (c : BitVec 3)
    (v : BitVec 5), exec (.rxResult rx) s = .next t → t.response = some (.accepted d st e b c v) →
    t.lastState = st ∧
    exec (.decState d) t = .next { t with response := some (.state st) } ∧
    exec (.decEvents d) t = .next { t with response := some (.events e) } ∧
    exec (.decCashbox d) t = .next { t with response := some (.bool b) } ∧
    exec (.decCredit d) t = .next { t with response := some (.credit c) } ∧
    exec (.decDiag d) t = .next { t with response := some (.diag v) }

/-- ACK (10_state.md R21): it is bit 0 of CTRL of a fresh frame and of the reset frame; only INIT, the reset path of TX_SELECT and
an acceptance write it, the last two by inverting it; its reset value is the open ACK_INIT. -/
def Obligations.AckTogglesOnlyOnResetTickOrAcceptance : Prop :=
  (∀ en m k r s t f kind, exec (.txSelect en m k r) s = .next t → t.response = some (.tx f kind) → kind ≠ .replay →
    f.ctrl &&& 0x01#8 = s.ack.setWidth 8) ∧
  (∀ (i : Instr) (s t : State), exec i s = .next t → i ≠ .init →
    (isResetTick i s ∨ ((∃ rx, i = .rxResult rx) ∧ wasAccepted t) → t.ack = ~~~s.ack) ∧
    (¬ (isResetTick i s ∨ ((∃ rx, i = .rxResult rx) ∧ wasAccepted t)) → t.ack = s.ack)) ∧
  State.reset.ack = Config.ackInit ∧ (∀ s t, exec .init s = .next t → t.ack = Config.ackInit)

/-- LAST_TX is written by INIT and by a fresh-path TX_SELECT only, the latter with the frame it hands out; it never takes a
reset frame (10_state.md §1; D23). -/
def Obligations.LastTxHoldsTheFreshFrame : Prop :=
  ∀ (i : Instr) (s t : State), exec i s = .next t → i ≠ .init →
    (t.lastTx = s.lastTx ∨
      ∃ en m k r, i = .txSelect en m k r ∧ s.resetReq = false ∧ s.rtxPending = false ∧
        t.response = some (.tx t.lastTx .fresh)) ∧
    (∀ f, t.response = some (.tx f .fresh) → t.lastTx = f)

/-- RTX_PENDING and RESET_REQ after every operation (10_state.md §1, 43_sequence.md §2; D23). -/
def Obligations.FlagsAreSetAndClearedAsListed : Prop :=
  ∀ (i : Instr) (s t : State), exec i s = .next t →
    match i with
    | .init => t.rtxPending = false ∧ t.resetReq = false
    | .reqReset => t.rtxPending = s.rtxPending ∧ t.resetReq = true
    | .txSelect _ _ _ _ => t.rtxPending = s.rtxPending ∧ t.resetReq = false
    | .txResult w =>
      (t.rtxPending = true ↔ s.rtxPending = true ∨ (s.txKind ≠ .reset ∧ w ≠ 0#2)) ∧ t.resetReq = s.resetReq
    | .rxResult _ => (t.rtxPending = true ↔ ¬ wasAccepted t) ∧ t.resetReq = s.resetReq
    | _ => t.rtxPending = s.rtxPending ∧ t.resetReq = s.resetReq

/-- PHASE and TX_KIND after every operation: the order of a tick (10_state.md §1, 43_sequence.md §2; D4, D23). -/
def Obligations.PhaseFollowsTheTickOrder : Prop :=
  ∀ (i : Instr) (s t : State), exec i s = .next t →
    match i with
    | .init => t.phase = .idle ∧ t.txKind = .fresh
    | .txSelect _ _ _ _ => s.phase = .idle ∧ t.phase = .txWait ∧
        (s.resetReq = true → t.txKind = .reset) ∧
        (s.resetReq = false → s.rtxPending = true → t.txKind = .replay) ∧
        (s.resetReq = false → s.rtxPending = false → t.txKind = .fresh)
    | .txResult w => s.phase = .txWait ∧ t.txKind = s.txKind ∧
        (s.txKind = .reset ∨ w ≠ 0#2 → t.phase = .idle) ∧ (s.txKind ≠ .reset → w = 0#2 → t.phase = .rxWait)
    | .rxResult _ => s.phase = .rxWait ∧ t.phase = .idle ∧ t.txKind = s.txKind
    | _ => t.phase = s.phase ∧ t.txKind = s.txKind

/-- LAST_STATE is written by INIT and by an acceptance only (10_state.md §1; D26). -/
def Obligations.LastStateChangesOnlyOnAcceptance : Prop :=
  ∀ (i : Instr) (s t : State), exec i s = .next t →
    (i = .init → t.lastState = .offline) ∧
    (i ≠ .init → ¬ ((∃ rx, i = .rxResult rx) ∧ wasAccepted t) → t.lastState = s.lastState)

/-- Error entry (60_exceptions.md R185): when a fresh or replayed frame's exchange ends with an error outcome, the frame is
retained, ACK, LAST_TX and LAST_STATE stay, the block is in IDLE, the outcome is reported, and nothing else changes. -/
def Obligations.ErrorEntryRetainsTheFrame : Prop :=
  ∀ (i : Instr) (s t : State), exec i s = .next t →
    ((∃ w, i = .txResult w) ∧ s.txKind ≠ .reset) ∨ (∃ rx, i = .rxResult rx) → wasError t →
    t = { s with rtxPending := true, phase := .idle, response := t.response }

/-- Which operation raises which outcome, and the outcomes' codes (60_exceptions.md §1; the codes are the spec's decision
D15). -/
def Obligations.OutcomesComeFromTheirOperations : Prop :=
  (∀ (i : Instr) (s t : State), exec i s = .next t →
    ∃ r, t.response = some r ∧
      match outcomeOf r with
      | .ok => ∀ rx, i ≠ .rxResult rx
      | .accepted => ∃ rx, i = .rxResult rx
      | .timeout => ∃ rx, i = .rxResult rx
      | .writeError => i = .txResult 1#2
      | .portError => i = .txResult 2#2
      | .ackMismatch => ∃ rx, i = .rxResult rx
      | .checksumError => ∃ rx, i = .rxResult rx
      | .invalidCommand => (∃ rx, i = .rxResult rx) ∨ ∃ f, i = .decRsp f) ∧
  [OutcomeName.ok, .accepted, .timeout, .writeError, .portError, .ackMismatch, .checksumError, .invalidCommand].map
    (fun o => (outcomeCode o).toNat) = [0, 1, 2, 3, 4, 5, 6, 7]

/-- TX_RESULT reports exactly the write result it is given; TX_SELECT and the pure operations other than DEC_RSP have no error
outcome, and REQ_RESET answers OK (60_exceptions.md R184). -/
def Obligations.OnlyResultsReportErrors : Prop :=
  (∀ s t, exec (.txResult 0#2) s = .next t → t.response.map outcomeOf = some .ok) ∧
  (∀ s t, exec (.txResult 1#2) s = .next t → t.response.map outcomeOf = some .writeError) ∧
  (∀ s t, exec (.txResult 2#2) s = .next t → t.response.map outcomeOf = some .portError) ∧
  (∀ (i : Instr) (s t : State), exec i s = .next t →
    isPure i = true ∨ (∃ en m k r, i = .txSelect en m k r) ∨ i = .reqReset → (∀ f, i ≠ .decRsp f) →
    t.response.map outcomeOf = some .ok)

/-- A response whose InvalidCommandEvt bit is set is Accepted if its framing is good, with that event in its event set
(60_exceptions.md R194). -/
def Obligations.InvalidCommandEventIsAccepted : Prop :=
  ∀ (c b3 b4 b5 b6 b7 b8 chk : Byte) (s : State), s.initialised = true → s.phase = .rxWait →
    c.getLsbD 0 = s.lastTx.ctrl.getLsbD 0 → b5.getLsbD 1 = true →
    chk = 0x0B#8 ^^^ c ^^^ b3 ^^^ b4 ^^^ b5 ^^^ b6 ^^^ b7 ^^^ b8 →
    ∃ t d st e b cr v,
      exec (.rxResult (.bytes [0x02#8, 0x0B#8, c, b3, b4, b5, b6, b7, b8, 0x03#8, chk])) s = .next t ∧
      t.response = some (.accepted d st e b cr v) ∧ .invalidCommandEvt ∈ eventSet e

/-! ## Whole-machine rules -/

/-- The run's invariant holds at reset (43_sequence.md §2). -/
def Obligations.RunInvariantAtReset : Prop := RunInv State.reset

/-- Every step keeps the run's invariant: in RX_WAIT no reset frame is in flight, wherever LAST_TX can still be read it is a
command frame with its checksum, and every record held is one DEC_RSP makes (43_sequence.md §2 R155 (a), (c),
41_codec.md §1, which the spec derives). -/
def Obligations.StepKeepsTheRunInvariant : Prop :=
  ∀ s t : State, RunInv s → step s = .next t → RunInv t

/-- Every frame TX_SELECT hands out is a command frame or one of the two reset frames, and passes CHECKSUM_OK with kind CMD
(30_encoding.md §1, §2; 43_sequence.md §2). -/
def Obligations.TransmittedFramesAreWellFormed : Prop :=
  ∀ (en : Byte) (m k r : Bit) (s t : State), RunInv s → exec (.txSelect en m k r) s = .next t →
    ∃ f kind, t.response = some (.tx f kind) ∧ t.txKind = kind ∧
      (kind = .reset → frameBytes f = [0x02#8, 0x08#8, 0x60#8, 0x7F#8, 0x7F#8, 0x7F#8, 0x03#8, 0x17#8] ∨
        frameBytes f = [0x02#8, 0x08#8, 0x61#8, 0x7F#8, 0x7F#8, 0x7F#8, 0x03#8, 0x16#8]) ∧
      (kind ≠ .reset → IsCommandFrame f) ∧
      exec (.checksumOk (frameBytes f) .cmd) t = .next { t with response := some (.bool true) }

/-- Until a reset tick, the retained frame's ack bit stays ACK wherever LAST_TX can still be read; INIT and a fresh frame
establish it anew (43_sequence.md §2 R155 (e), which the spec derives). -/
def Obligations.RetainedAckBitFollowsAck : Prop :=
  ∀ (i : Instr) (s t : State), exec i s = .next t → ¬ isResetTick i s →
    (AckAligned s → AckAligned t) ∧ (i = .init → AckAligned t) ∧
    (∀ f, t.response = some (.tx f .fresh) → AckAligned t)

/-- From a TX_SELECT that sends a fresh or replayed frame until the next TX_SELECT or INIT, LAST_TX is that frame
(43_sequence.md §2 R155 (a), which the spec derives). -/
def Obligations.FrameInFlightIsLastTx : Prop :=
  ∀ (en : Byte) (m k r : Bit) (s t u : State), exec (.txSelect en m k r) s = .next t → t.txKind ≠ .reset →
    Path (fun _ i _ => i ≠ .init ∧ ∀ en m k r, i ≠ .txSelect en m k r) t u →
    t.response = some (.tx u.lastTx t.txKind)

/-- Failures nest without limit: until an acceptance or INIT, a retained frame stays retained, and every TX_SELECT without a
reset request sends it again bit for bit, whatever its operands (60_exceptions.md §3 R186; 70_reset_and_hazards.md §2 R204;
no retry limit is the spec's decision D31). -/
def Obligations.RetainedFrameIsReplayedUntilAccepted : Prop :=
  ∀ s u : State, s.rtxPending = true → Path (fun _ i t => i ≠ .init ∧ ¬ wasAccepted t) s u →
    u.rtxPending = true ∧ u.lastTx = s.lastTx ∧
    (u.initialised = true → u.phase = .idle → u.resetReq = false → ∀ (en : Byte) (m k r : Bit),
      exec (.txSelect en m k r) u = .next { u with
        txKind := .replay, phase := .txWait, response := some (.tx s.lastTx .replay) })

/-- Exactly-once acceptance per ack value: after an acceptance, up to the next one, reset tick or INIT, every frame sent carries
the toggled ack bit and every response with the other one is an AckMismatch, so the accepted response, late or
duplicated, is not accepted again (43_sequence.md §2 R156, which the spec derives). -/
def Obligations.DuplicateResponsesAreNeverAccepted : Prop :=
  ∀ (rx : List Byte) (s t u : State), exec (.rxResult (.bytes rx)) s = .next t → wasAccepted t →
    Path (fun s i t => i ≠ .init ∧ ¬ isResetTick i s ∧ ¬ wasAccepted t) t u →
    t.ack = ~~~s.ack ∧ u.ack = t.ack ∧
    (∀ en m k r v f kind, exec (.txSelect en m k r) u = .next v → ¬ u.resetReq = true →
      v.response = some (.tx f kind) → f.ctrl &&& 0x01#8 = t.ack.setWidth 8) ∧
    (∀ (f : List Byte) (v : State), exec (.rxResult (.bytes f)) u = .next v → 3 ≤ f.length →
      f.getD 2 0x00#8 &&& 0x01#8 ≠ t.ack.setWidth 8 → v.response = some .ackMismatch) ∧
    (AckAligned s → ∀ v, exec (.rxResult (.bytes rx)) u = .next v → v.response = some .ackMismatch)

/-- The value INIT leaves in LAST_TX is never observed: two runs from an INIT that differ only in it give the same answers, the same
refusals and the same other registers at every step, and once a fresh frame is built they are the same
(10_state.md §1 R23; D23). -/
def Obligations.LastTxAfterInitIsNeverObserved : Prop :=
  (∀ s t : State, exec .init s = .next t → ∀ f : TxFrame, AgreeButUnread t { t with lastTx := f }) ∧
  (∀ (s t : State), AgreeButUnread s t → ∀ n : Nat,
    ∃ s' t', Sys2Proof.core.run n s = .next s' ∧ Sys2Proof.core.run n t = .next t' ∧ AgreeButUnread s' t')

/-- A controller that keeps the tick order is never refused, and each tick ends in IDLE (43_sequence.md §2 R158;
60_exceptions.md §3; D4; that no byte sequence is longer than 254 bytes is log entry 7). -/
def Obligations.TickOrderIsNeverRefused : Prop :=
  ∀ (en : Byte) (m k r : Bit) (w : BitVec 2) (rx : ReadResult) (s : State), s.initialised = true → s.phase = .idle →
    w ≠ 3#2 → readFits rx = true →
    ∃ t u, exec (.txSelect en m k r) s = .next t ∧ exec (.txResult w) t = .next u ∧
      (t.txKind = .reset ∨ w ≠ 0#2 → u.phase = .idle) ∧
      (t.txKind ≠ .reset → w = 0#2 → ∃ v, exec (.rxResult rx) u = .next v ∧ v.phase = .idle)

/-- Reset while a frame is retained: the reset tick leaves the frame; the next tick replays it with its old ack bit; if that
replay is accepted, the next fresh frame carries the same ack bit again (70_reset_and_hazards.md §2 R205, which the spec
derives; D12, D29). -/
def Obligations.ResetTickKeepsTheRetainedFrame : Prop :=
  ∀ (en en' en'' : Byte) (m k r m' k' r' m'' k'' r'' : Bit) (w : BitVec 2) (rx : ReadResult)
    (s s1 s2 s3 s4 s5 s6 : State), s.resetReq = true → s.rtxPending = true →
    exec (.txSelect en m k r) s = .next s1 → exec (.txResult w) s1 = .next s2 →
    exec (.txSelect en' m' k' r') s2 = .next s3 → exec (.txResult 0#2) s3 = .next s4 →
    exec (.rxResult rx) s4 = .next s5 → wasAccepted s5 → exec (.txSelect en'' m'' k'' r'') s5 = .next s6 →
    s2.ack = ~~~s.ack ∧ s2.rtxPending = true ∧ s3.response = some (.tx s.lastTx .replay) ∧ s5.ack = s.ack ∧
    ∃ f, s6.response = some (.tx f .fresh) ∧ f.ctrl &&& 0x01#8 = s.ack.setWidth 8

/-- A stale answer to a reset frame: it carries the reset frame's ack bit, which the next fresh frame does not, so it is an
AckMismatch and the fresh frame is replayed; after a reset with a frame retained under the same bit it matches the replay
(70_reset_and_hazards.md §2 R206, which the spec derives). -/
def Obligations.StaleResetAnswerIsMismatched : Prop :=
  ∀ (en en' : Byte) (m k r m' k' r' : Bit) (w : BitVec 2) (rx : List Byte) (s s1 s2 s3 s4 s5 : State),
    s.resetReq = true → 3 ≤ rx.length → rx.getD 2 0x00#8 &&& 0x01#8 = s.ack.setWidth 8 →
    exec (.txSelect en m k r) s = .next s1 → exec (.txResult w) s1 = .next s2 →
    exec (.txSelect en' m' k' r') s2 = .next s3 → exec (.txResult 0#2) s3 = .next s4 →
    exec (.rxResult (.bytes rx)) s4 = .next s5 →
    (s.rtxPending = false → s5.response = some .ackMismatch ∧ s5.rtxPending = true ∧
      s3.response = some (.tx s5.lastTx .fresh)) ∧
    (s.rtxPending = true → s.lastTx.ctrl &&& 0x01#8 = s.ack.setWidth 8 → s5.response ≠ some .ackMismatch)
end

