-- ==== Sys2Proof/Laws/Codec.lean ====
section
/-! SUPPORT. Each operand reader gives back what its writer wrote, and leaves the bytes after it. -/

namespace Sys2Proof

theorem seqFits_iff {f : List Byte} : seqFits f = true ↔ f.length ≤ 254 := decide_eq_true_iff

@[simp] theorem andThen_ok {α β : Type} (a : α) (rest : List Byte) (k : α → List Byte → Parsed β) :
    andThen (.ok (a, rest)) k = k a rest := rfl

theorem andThen_eq_ok {α β : Type} {p : Parsed α} {k : α → List Byte → Parsed β} {b : β × List Byte} :
    andThen p k = .ok b ↔ ∃ a rest, p = .ok (a, rest) ∧ k a rest = .ok b := by
  unfold andThen
  cases p with
  | error e => simp
  | ok x =>
    obtain ⟨a, rest⟩ := x
    simp

@[simp] theorem takeByte_cons (b : Byte) (rest : List Byte) : takeByte (b :: rest) = .ok (b, rest) := rfl

@[simp] theorem takeBit_bitByte (b : Bit) (rest : List Byte) : takeBit (bitByte b :: rest) = .ok (b, rest) := by
  have h1 : (bitByte b).toNat < 2 := by revert b; decide
  have h2 : (bitByte b).setWidth 1 = b := by revert b; decide
  simp [takeBit, h1, h2]

@[simp] theorem takeKind_kindByte (k : FrameKind) (rest : List Byte) :
    takeKind (kindByte k :: rest) = .ok (k, rest) := by
  cases k <;> simp [takeKind, kindByte]

theorem takeWriteResult_code {w : BitVec 2} (h : w ≠ 3#2) (rest : List Byte) :
    takeWriteResult (w.setWidth 8 :: rest) = .ok (w, rest) := by
  have h1 : ∀ w : BitVec 2, w ≠ 3#2 → (w.setWidth 8).toNat < 3 ∧ (w.setWidth 8).setWidth 2 = w := by decide
  obtain ⟨ha, hb⟩ := h1 w h
  rw [takeWriteResult, if_pos ha, hb]

theorem takeSeq_seqBytes {f : List Byte} (h : seqFits f = true) (rest : List Byte) :
    takeSeq (seqBytes f ++ rest) = .ok (f, rest) := by
  have hf : f.length ≤ 254 := seqFits_iff.mp h
  have hn : (BitVec.ofNat 8 f.length).toNat = f.length := by simp; omega
  simp only [seqBytes, List.cons_append, takeSeq, hn, Config.nMax]
  rw [if_neg (by omega), if_neg (by simp)]
  simp

theorem takeRead_readBytes {rx : ReadResult} (h : readFits rx = true) (rest : List Byte) :
    takeRead (readBytes rx ++ rest) = .ok (rx, rest) := by
  cases rx with
  | timeout => rfl
  | bytes f =>
    have hf : f.length ≤ 254 := seqFits_iff.mp h
    have hne : BitVec.ofNat 8 f.length ≠ 0xFF#8 := by
      intro e
      have := congrArg BitVec.toNat e
      simp at this
      omega
    have hs := takeSeq_seqBytes (f := f) h rest
    simp only [readBytes, seqBytes, List.cons_append] at hs ⊢
    rw [takeRead, if_neg hne, hs, andThen_ok]

/-- Packing the three bytes of a payload gives the payload (R81). -/
theorem packPayload_bytes (p : BitVec 24) :
    packPayload (p.extractLsb' 0 8) (p.extractLsb' 8 8) (p.extractLsb' 16 8) = p := by
  apply BitVec.eq_of_getLsbD_eq
  intro j hj
  simp only [packPayload, BitVec.getLsbD_or, BitVec.getLsbD_shiftLeft, BitVec.getLsbD_setWidth,
    BitVec.getLsbD_extractLsb']
  by_cases h1 : j < 8
  · simp [h1, hj, show j < 16 by omega]
  · by_cases h2 : j < 16
    · simp [h1, h2, hj, show j - 8 < 8 by omega, show 8 + (j - 8) = j by omega, show j - 8 < 24 by omega]
    · simp [h1, h2, hj, show ¬ (j - 8 < 8) by omega, show j - 16 < 8 by omega, show 16 + (j - 16) = j by omega,
        show j - 16 < 24 by omega]

/-- The bytes of a packed payload are the bytes packed (R81). -/
theorem packPayload_eq_append (b3 b4 b5 : Byte) : packPayload b3 b4 b5 = b5 ++ b4 ++ b3 := by
  apply BitVec.eq_of_getLsbD_eq
  intro j hj
  simp only [packPayload, BitVec.getLsbD_or, BitVec.getLsbD_shiftLeft, BitVec.getLsbD_setWidth,
    BitVec.getLsbD_append]
  by_cases h1 : j < 8
  · simp [h1, hj, show j < 16 by omega]
  · by_cases h2 : j < 16
    · simp [h1, h2, hj, show j - 8 < 8 by omega, show j - 8 < 24 by omega, BitVec.getLsbD_of_ge b3 j (by omega)]
    · simp [h1, h2, hj, show ¬ (j - 8 < 8) by omega, show j - 16 < 24 by omega, show j - 8 - 8 = j - 16 by omega,
        BitVec.getLsbD_of_ge b3 j (by omega), BitVec.getLsbD_of_ge b4 (j - 8) (by omega)]

theorem takeRecord_recordBytes {d : DecodedRecord} (h : d.consistent = true) (rest : List Byte) :
    takeRecord (recordBytes d ++ rest) = .ok (d, rest) := by
  have ha : d.ack = (d.ctrl &&& 1#8).setWidth 1 := by simpa [DecodedRecord.consistent] using h
  have e1 : ∀ c : Byte, bitByte ((c &&& 1#8).setWidth 1) = c &&& 1#8 := by decide
  have hb : bitByte d.ack = d.ctrl &&& 1#8 := by rw [ha, e1]
  have hs : (bitByte d.ack).setWidth 1 = d.ack := by
    have : ∀ b : Bit, (bitByte b).setWidth 1 = b := by decide
    exact this _
  simp only [recordBytes, List.cons_append, List.nil_append, takeRecord, if_pos hb, hs, packPayload_bytes]

end Sys2Proof
end

