-- ==== Sys2Proof/Laws/State.lean ====
section
/-! SUPPORT. Every field after every register update: no later proof unfolds a record update. -/

namespace Sys2Proof.Machine.State

section answer
variable (s : State) (r : Response)
@[simp] theorem answer_ack : (s.answer r).ack = s.ack := rfl
@[simp] theorem answer_rtxPending : (s.answer r).rtxPending = s.rtxPending := rfl
@[simp] theorem answer_lastTx : (s.answer r).lastTx = s.lastTx := rfl
@[simp] theorem answer_resetReq : (s.answer r).resetReq = s.resetReq := rfl
@[simp] theorem answer_phase : (s.answer r).phase = s.phase := rfl
@[simp] theorem answer_txKind : (s.answer r).txKind = s.txKind := rfl
@[simp] theorem answer_lastState : (s.answer r).lastState = s.lastState := rfl
@[simp] theorem answer_initialised : (s.answer r).initialised = s.initialised := rfl
@[simp] theorem answer_requests : (s.answer r).requests = s.requests := rfl
@[simp] theorem answer_response : (s.answer r).response = some r := rfl
@[simp] theorem answer_produced : (s.answer r).produced = s.produced := rfl
@[simp] theorem answer_refusals : (s.answer r).refusals = s.refusals := rfl
@[simp] theorem answer_freeDraws : (s.answer r).freeDraws = s.freeDraws := rfl
end answer

section returnRecord
variable (s : State) (d : DecodedRecord)
@[simp] theorem returnRecord_ack : (s.returnRecord d).ack = s.ack := rfl
@[simp] theorem returnRecord_rtxPending : (s.returnRecord d).rtxPending = s.rtxPending := rfl
@[simp] theorem returnRecord_lastTx : (s.returnRecord d).lastTx = s.lastTx := rfl
@[simp] theorem returnRecord_resetReq : (s.returnRecord d).resetReq = s.resetReq := rfl
@[simp] theorem returnRecord_phase : (s.returnRecord d).phase = s.phase := rfl
@[simp] theorem returnRecord_txKind : (s.returnRecord d).txKind = s.txKind := rfl
@[simp] theorem returnRecord_lastState : (s.returnRecord d).lastState = s.lastState := rfl
@[simp] theorem returnRecord_initialised : (s.returnRecord d).initialised = s.initialised := rfl
@[simp] theorem returnRecord_requests : (s.returnRecord d).requests = s.requests := rfl
@[simp] theorem returnRecord_response : (s.returnRecord d).response = s.response := rfl
@[simp] theorem returnRecord_produced : (s.returnRecord d).produced = noteRecord d s.produced := rfl
@[simp] theorem returnRecord_refusals : (s.returnRecord d).refusals = s.refusals := rfl
@[simp] theorem returnRecord_freeDraws : (s.returnRecord d).freeDraws = s.freeDraws := rfl
end returnRecord

section initialise
variable (s : State)
@[simp] theorem initialise_ack : (s.initialise).ack = Config.ackInit := rfl
@[simp] theorem initialise_rtxPending : (s.initialise).rtxPending = false := rfl
@[simp] theorem initialise_lastTx : (s.initialise).lastTx = Config.freeFrame s.freeDraws := rfl
@[simp] theorem initialise_resetReq : (s.initialise).resetReq = false := rfl
@[simp] theorem initialise_phase : (s.initialise).phase = .idle := rfl
@[simp] theorem initialise_txKind : (s.initialise).txKind = .fresh := rfl
@[simp] theorem initialise_lastState : (s.initialise).lastState = .offline := rfl
@[simp] theorem initialise_initialised : (s.initialise).initialised = true := rfl
@[simp] theorem initialise_requests : (s.initialise).requests = s.requests := rfl
@[simp] theorem initialise_response : (s.initialise).response = s.response := rfl
@[simp] theorem initialise_produced : (s.initialise).produced = s.produced := rfl
@[simp] theorem initialise_refusals : (s.initialise).refusals = s.refusals := rfl
@[simp] theorem initialise_freeDraws : (s.initialise).freeDraws = s.freeDraws + 1 := rfl
end initialise

section requestReset
variable (s : State)
@[simp] theorem requestReset_ack : (s.requestReset).ack = s.ack := rfl
@[simp] theorem requestReset_rtxPending : (s.requestReset).rtxPending = s.rtxPending := rfl
@[simp] theorem requestReset_lastTx : (s.requestReset).lastTx = s.lastTx := rfl
@[simp] theorem requestReset_resetReq : (s.requestReset).resetReq = true := rfl
@[simp] theorem requestReset_phase : (s.requestReset).phase = s.phase := rfl
@[simp] theorem requestReset_txKind : (s.requestReset).txKind = s.txKind := rfl
@[simp] theorem requestReset_lastState : (s.requestReset).lastState = s.lastState := rfl
@[simp] theorem requestReset_initialised : (s.requestReset).initialised = s.initialised := rfl
@[simp] theorem requestReset_requests : (s.requestReset).requests = s.requests := rfl
@[simp] theorem requestReset_response : (s.requestReset).response = s.response := rfl
@[simp] theorem requestReset_produced : (s.requestReset).produced = s.produced := rfl
@[simp] theorem requestReset_refusals : (s.requestReset).refusals = s.refusals := rfl
@[simp] theorem requestReset_freeDraws : (s.requestReset).freeDraws = s.freeDraws := rfl
end requestReset

section startReset
variable (s : State)
@[simp] theorem startReset_ack : (s.startReset).ack = ~~~s.ack := rfl
@[simp] theorem startReset_rtxPending : (s.startReset).rtxPending = s.rtxPending := rfl
@[simp] theorem startReset_lastTx : (s.startReset).lastTx = s.lastTx := rfl
@[simp] theorem startReset_resetReq : (s.startReset).resetReq = false := rfl
@[simp] theorem startReset_phase : (s.startReset).phase = .txWait := rfl
@[simp] theorem startReset_txKind : (s.startReset).txKind = .reset := rfl
@[simp] theorem startReset_lastState : (s.startReset).lastState = s.lastState := rfl
@[simp] theorem startReset_initialised : (s.startReset).initialised = s.initialised := rfl
@[simp] theorem startReset_requests : (s.startReset).requests = s.requests := rfl
@[simp] theorem startReset_response : (s.startReset).response = s.response := rfl
@[simp] theorem startReset_produced : (s.startReset).produced = s.produced := rfl
@[simp] theorem startReset_refusals : (s.startReset).refusals = s.refusals := rfl
@[simp] theorem startReset_freeDraws : (s.startReset).freeDraws = s.freeDraws := rfl
end startReset

section startReplay
variable (s : State)
@[simp] theorem startReplay_ack : (s.startReplay).ack = s.ack := rfl
@[simp] theorem startReplay_rtxPending : (s.startReplay).rtxPending = s.rtxPending := rfl
@[simp] theorem startReplay_lastTx : (s.startReplay).lastTx = s.lastTx := rfl
@[simp] theorem startReplay_resetReq : (s.startReplay).resetReq = s.resetReq := rfl
@[simp] theorem startReplay_phase : (s.startReplay).phase = .txWait := rfl
@[simp] theorem startReplay_txKind : (s.startReplay).txKind = .replay := rfl
@[simp] theorem startReplay_lastState : (s.startReplay).lastState = s.lastState := rfl
@[simp] theorem startReplay_initialised : (s.startReplay).initialised = s.initialised := rfl
@[simp] theorem startReplay_requests : (s.startReplay).requests = s.requests := rfl
@[simp] theorem startReplay_response : (s.startReplay).response = s.response := rfl
@[simp] theorem startReplay_produced : (s.startReplay).produced = s.produced := rfl
@[simp] theorem startReplay_refusals : (s.startReplay).refusals = s.refusals := rfl
@[simp] theorem startReplay_freeDraws : (s.startReplay).freeDraws = s.freeDraws := rfl
end startReplay

section startFresh
variable (s : State) (f : TxFrame)
@[simp] theorem startFresh_ack : (s.startFresh f).ack = s.ack := rfl
@[simp] theorem startFresh_rtxPending : (s.startFresh f).rtxPending = s.rtxPending := rfl
@[simp] theorem startFresh_lastTx : (s.startFresh f).lastTx = f := rfl
@[simp] theorem startFresh_resetReq : (s.startFresh f).resetReq = s.resetReq := rfl
@[simp] theorem startFresh_phase : (s.startFresh f).phase = .txWait := rfl
@[simp] theorem startFresh_txKind : (s.startFresh f).txKind = .fresh := rfl
@[simp] theorem startFresh_lastState : (s.startFresh f).lastState = s.lastState := rfl
@[simp] theorem startFresh_initialised : (s.startFresh f).initialised = s.initialised := rfl
@[simp] theorem startFresh_requests : (s.startFresh f).requests = s.requests := rfl
@[simp] theorem startFresh_response : (s.startFresh f).response = s.response := rfl
@[simp] theorem startFresh_produced : (s.startFresh f).produced = s.produced := rfl
@[simp] theorem startFresh_refusals : (s.startFresh f).refusals = s.refusals := rfl
@[simp] theorem startFresh_freeDraws : (s.startFresh f).freeDraws = s.freeDraws := rfl
end startFresh

section awaitResponse
variable (s : State)
@[simp] theorem awaitResponse_ack : (s.awaitResponse).ack = s.ack := rfl
@[simp] theorem awaitResponse_rtxPending : (s.awaitResponse).rtxPending = s.rtxPending := rfl
@[simp] theorem awaitResponse_lastTx : (s.awaitResponse).lastTx = s.lastTx := rfl
@[simp] theorem awaitResponse_resetReq : (s.awaitResponse).resetReq = s.resetReq := rfl
@[simp] theorem awaitResponse_phase : (s.awaitResponse).phase = .rxWait := rfl
@[simp] theorem awaitResponse_txKind : (s.awaitResponse).txKind = s.txKind := rfl
@[simp] theorem awaitResponse_lastState : (s.awaitResponse).lastState = s.lastState := rfl
@[simp] theorem awaitResponse_initialised : (s.awaitResponse).initialised = s.initialised := rfl
@[simp] theorem awaitResponse_requests : (s.awaitResponse).requests = s.requests := rfl
@[simp] theorem awaitResponse_response : (s.awaitResponse).response = s.response := rfl
@[simp] theorem awaitResponse_produced : (s.awaitResponse).produced = s.produced := rfl
@[simp] theorem awaitResponse_refusals : (s.awaitResponse).refusals = s.refusals := rfl
@[simp] theorem awaitResponse_freeDraws : (s.awaitResponse).freeDraws = s.freeDraws := rfl
end awaitResponse

section endTick
variable (s : State)
@[simp] theorem endTick_ack : (s.endTick).ack = s.ack := rfl
@[simp] theorem endTick_rtxPending : (s.endTick).rtxPending = s.rtxPending := rfl
@[simp] theorem endTick_lastTx : (s.endTick).lastTx = s.lastTx := rfl
@[simp] theorem endTick_resetReq : (s.endTick).resetReq = s.resetReq := rfl
@[simp] theorem endTick_phase : (s.endTick).phase = .idle := rfl
@[simp] theorem endTick_txKind : (s.endTick).txKind = s.txKind := rfl
@[simp] theorem endTick_lastState : (s.endTick).lastState = s.lastState := rfl
@[simp] theorem endTick_initialised : (s.endTick).initialised = s.initialised := rfl
@[simp] theorem endTick_requests : (s.endTick).requests = s.requests := rfl
@[simp] theorem endTick_response : (s.endTick).response = s.response := rfl
@[simp] theorem endTick_produced : (s.endTick).produced = s.produced := rfl
@[simp] theorem endTick_refusals : (s.endTick).refusals = s.refusals := rfl
@[simp] theorem endTick_freeDraws : (s.endTick).freeDraws = s.freeDraws := rfl
end endTick

section retain
variable (s : State)
@[simp] theorem retain_ack : (s.retain).ack = s.ack := rfl
@[simp] theorem retain_rtxPending : (s.retain).rtxPending = true := rfl
@[simp] theorem retain_lastTx : (s.retain).lastTx = s.lastTx := rfl
@[simp] theorem retain_resetReq : (s.retain).resetReq = s.resetReq := rfl
@[simp] theorem retain_phase : (s.retain).phase = .idle := rfl
@[simp] theorem retain_txKind : (s.retain).txKind = s.txKind := rfl
@[simp] theorem retain_lastState : (s.retain).lastState = s.lastState := rfl
@[simp] theorem retain_initialised : (s.retain).initialised = s.initialised := rfl
@[simp] theorem retain_requests : (s.retain).requests = s.requests := rfl
@[simp] theorem retain_response : (s.retain).response = s.response := rfl
@[simp] theorem retain_produced : (s.retain).produced = s.produced := rfl
@[simp] theorem retain_refusals : (s.retain).refusals = s.refusals := rfl
@[simp] theorem retain_freeDraws : (s.retain).freeDraws = s.freeDraws := rfl
end retain

section accept
variable (s : State) (st : DeviceState)
@[simp] theorem accept_ack : (s.accept st).ack = ~~~s.ack := rfl
@[simp] theorem accept_rtxPending : (s.accept st).rtxPending = false := rfl
@[simp] theorem accept_lastTx : (s.accept st).lastTx = s.lastTx := rfl
@[simp] theorem accept_resetReq : (s.accept st).resetReq = s.resetReq := rfl
@[simp] theorem accept_phase : (s.accept st).phase = .idle := rfl
@[simp] theorem accept_txKind : (s.accept st).txKind = s.txKind := rfl
@[simp] theorem accept_lastState : (s.accept st).lastState = st := rfl
@[simp] theorem accept_initialised : (s.accept st).initialised = s.initialised := rfl
@[simp] theorem accept_requests : (s.accept st).requests = s.requests := rfl
@[simp] theorem accept_response : (s.accept st).response = s.response := rfl
@[simp] theorem accept_produced : (s.accept st).produced = s.produced := rfl
@[simp] theorem accept_refusals : (s.accept st).refusals = s.refusals := rfl
@[simp] theorem accept_freeDraws : (s.accept st).freeDraws = s.freeDraws := rfl
end accept

section leaveRequests
variable (s : State) (rest : List (List Byte))
@[simp] theorem leaveRequests_ack : (s.leaveRequests rest).ack = s.ack := rfl
@[simp] theorem leaveRequests_rtxPending : (s.leaveRequests rest).rtxPending = s.rtxPending := rfl
@[simp] theorem leaveRequests_lastTx : (s.leaveRequests rest).lastTx = s.lastTx := rfl
@[simp] theorem leaveRequests_resetReq : (s.leaveRequests rest).resetReq = s.resetReq := rfl
@[simp] theorem leaveRequests_phase : (s.leaveRequests rest).phase = s.phase := rfl
@[simp] theorem leaveRequests_txKind : (s.leaveRequests rest).txKind = s.txKind := rfl
@[simp] theorem leaveRequests_lastState : (s.leaveRequests rest).lastState = s.lastState := rfl
@[simp] theorem leaveRequests_initialised : (s.leaveRequests rest).initialised = s.initialised := rfl
@[simp] theorem leaveRequests_requests : (s.leaveRequests rest).requests = rest := rfl
@[simp] theorem leaveRequests_response : (s.leaveRequests rest).response = s.response := rfl
@[simp] theorem leaveRequests_produced : (s.leaveRequests rest).produced = s.produced := rfl
@[simp] theorem leaveRequests_refusals : (s.leaveRequests rest).refusals = s.refusals := rfl
@[simp] theorem leaveRequests_freeDraws : (s.leaveRequests rest).freeDraws = s.freeDraws := rfl
end leaveRequests

section refuse
variable (s : State) (r : Refusal)
@[simp] theorem refuse_ack : (s.refuse r).ack = s.ack := rfl
@[simp] theorem refuse_rtxPending : (s.refuse r).rtxPending = s.rtxPending := rfl
@[simp] theorem refuse_lastTx : (s.refuse r).lastTx = s.lastTx := rfl
@[simp] theorem refuse_resetReq : (s.refuse r).resetReq = s.resetReq := rfl
@[simp] theorem refuse_phase : (s.refuse r).phase = s.phase := rfl
@[simp] theorem refuse_txKind : (s.refuse r).txKind = s.txKind := rfl
@[simp] theorem refuse_lastState : (s.refuse r).lastState = s.lastState := rfl
@[simp] theorem refuse_initialised : (s.refuse r).initialised = s.initialised := rfl
@[simp] theorem refuse_requests : (s.refuse r).requests = s.requests := rfl
@[simp] theorem refuse_response : (s.refuse r).response = none := rfl
@[simp] theorem refuse_produced : (s.refuse r).produced = s.produced := rfl
@[simp] theorem refuse_refusals : (s.refuse r).refusals = s.refusals ++ [r] := rfl
@[simp] theorem refuse_freeDraws : (s.refuse r).freeDraws = s.freeDraws := rfl
end refuse

end Sys2Proof.Machine.State
end

