-- ==== Sys2Proof/Laws/Ops.lean ====
section
/-! SUPPORT. One lemma for each shared operation, saying once what it gives. -/

namespace Sys2Proof.Machine

open Sys2Proof.Safety

/-! ### Refusal tests -/

theorem unlessRefused_next {r : Option Refusal} {k : StepResult} {t : State} :
    unlessRefused r k = .next t ↔ r = none ∧ k = .next t := by
  cases r <;> simp [unlessRefused]

@[simp] theorem unlessRefused_none (k : StepResult) : unlessRefused none k = k := rfl

@[simp] theorem unlessRefused_some (r : Refusal) (k : StepResult) : unlessRefused (some r) k = .refused r := rfl

@[simp] theorem seqRefusal_eq_none {f : List Byte} : seqRefusal f = none ↔ f.length ≤ 254 := by
  unfold seqRefusal
  rw [← seqFits_iff]
  split <;> simp_all

@[simp] theorem writeResultRefusal_eq_none {w : BitVec 2} : writeResultRefusal w = none ↔ w ≠ 3#2 := by
  simp [writeResultRefusal]

@[simp] theorem recordRefusal_eq_none {d : DecodedRecord} {s : State} :
    recordRefusal d s = none ↔ d ∈ s.produced := by
  simp [recordRefusal]

@[simp] theorem initRefusal_eq_none {s : State} : initRefusal s = none ↔ s.initialised = true := by
  simp [initRefusal]

@[simp] theorem phaseRefusal_eq_none {p : Phase} {s : State} : phaseRefusal p s = none ↔ s.phase = p := by
  simp [phaseRefusal]

theorem mem_noteRecord {d e : DecodedRecord} {ds : List DecodedRecord} :
    e ∈ noteRecord d ds ↔ e = d ∨ e ∈ ds := by
  unfold noteRecord
  split
  · constructor
    · exact .inr
    · rintro (rfl | h) <;> assumption
  · simp

theorem noteRecord_nodup {d : DecodedRecord} {ds : List DecodedRecord} (h : ds.Nodup) : (noteRecord d ds).Nodup := by
  unfold noteRecord
  split
  · exact h
  · exact List.nodup_cons.mpr ⟨‹_›, h⟩

/-! ### Frames and their checksum -/

/-- The span of a frame written as STX, span, ETX, checksum is the span (R130). -/
theorem checksumOf_frame (x y c : Byte) (span : List Byte) :
    checksumOf (x :: span ++ [y, c]) = span.foldr (· ^^^ ·) 0#8 := by
  simp [checksumOf, xorRange]

theorem checksumOf_short {f : List Byte} (h : f.length < 4) : checksumOf f = 0#8 := by
  simp [checksumOf, xorRange, show f.length - 3 = 0 by omega]

/-- The frame is long enough to be STX, span, ETX, checksum. -/
theorem frame_split {f : List Byte} {n : Nat} (h : f.length = n + 3) :
    ∃ (x y c : Byte) (span : List Byte), f = x :: span ++ [y, c] ∧ span.length = n := by
  obtain ⟨x, g, rfl⟩ := List.exists_cons_of_length_eq_add_one h
  have hg : g.length = n + 2 := by simpa using h
  refine ⟨x, g[n], g[n + 1], g.take n, ?_, by simp [hg]⟩
  have h1 : g.drop n = [g[n], g[n + 1]] := by
    rw [List.drop_eq_getElem_cons (by omega), List.drop_eq_getElem_cons (by omega),
      List.drop_eq_nil_of_le (by omega)]
  simp [← h1]

/-- CHECKSUM_OK on a frame written as STX, span, ETX, checksum (R131). -/
theorem checksumHolds_frame (x y c : Byte) (span : List Byte) (kind : FrameKind) :
    checksumHolds (x :: span ++ [y, c]) kind =
      (decide (span.length + 3 = requiredLength kind) && (span.foldr (· ^^^ ·) 0#8 == c)) := by
  unfold checksumHolds
  by_cases h : span.length + 3 = requiredLength kind
  · have e : byteAt (x :: span ++ [y, c]) (requiredLength kind - 1) = c := by
      simp [byteAt, ← h]
    simp [xorRange, ← h] at e ⊢
    simp [e]
  · simp [h]

theorem checksumHolds_length {f : List Byte} {kind : FrameKind} (h : checksumHolds f kind = true) :
    f.length = requiredLength kind := by
  unfold checksumHolds at h
  split at h
  · simp at h
  · omega

/-- The built command frame, its checksum worked out (R100). -/
theorem commandFrame_eq (c e s : Byte) : commandFrame c e s =
    ⟨0x02#8, 0x08#8, c, e, s, 0x00#8, 0x03#8, 0x08#8 ^^^ c ^^^ e ^^^ s⟩ := by
  simp [commandFrame, withChecksum, checksumOf, xorRange, frameBytes, Config.stx, Config.etx, Config.cmdLen,
    BitVec.xor_assoc]

/-- The two reset frames (R65, R101). -/
theorem resetFrame_eq (a : Bit) : resetFrame a = if a = 0#1
    then ⟨0x02#8, 0x08#8, 0x60#8, 0x7F#8, 0x7F#8, 0x7F#8, 0x03#8, 0x17#8⟩
    else ⟨0x02#8, 0x08#8, 0x61#8, 0x7F#8, 0x7F#8, 0x7F#8, 0x03#8, 0x16#8⟩ := by
  revert a; decide

/-- Bit 0 of a fresh frame's control byte is ACK (R61). -/
theorem commandCtrl_ackBit (a : Bit) : commandCtrl a &&& 1#8 = a.setWidth 8 := by
  revert a; decide

/-- A frame TX_SELECT builds is a command frame (43_sequence.md R155 (c)). -/
theorem freshFrame_isCommand (a : Bit) (en : Byte) (m k r : Bit) : IsCommandFrame (freshFrame a en m k r) := by
  unfold freshFrame
  rw [commandFrame_eq]
  refine ⟨rfl, rfl, ?_, ?_, ?_, rfl, rfl, rfl⟩
  · show commandCtrl a = 0x10#8 ∨ commandCtrl a = 0x11#8
    revert a; decide
  · simp only [enableByte, BitVec.toNat_and]
    exact Nat.and_le_right
  · show escrowByte m k r &&& 0x8F#8 = 0x00#8
    revert m k r; decide

/-! ### The ack comparison and the decoder -/

theorem ackBitsMatch_eq (f g : List Byte) : ackBitsMatch f g = true ↔
    3 ≤ f.length ∧ 3 ≤ g.length ∧ byteAt f 2 &&& 1#8 = byteAt g 2 &&& 1#8 := by
  unfold ackBitsMatch
  split
  · simp only [Bool.false_eq_true, false_iff]; omega
  · simp only [beq_iff_eq]
    constructor
    · intro h; exact ⟨by omega, by omega, h⟩
    · exact fun h => h.2.2

/-- Eleven bytes, each with its name. -/
theorem eleven_bytes {f : List Byte} (h : f.length = 11) :
    ∃ f0 f1 f2 f3 f4 f5 f6 f7 f8 f9 f10 : Byte, f = [f0, f1, f2, f3, f4, f5, f6, f7, f8, f9, f10] := by
  rcases f with _ | ⟨f0, _ | ⟨f1, _ | ⟨f2, _ | ⟨f3, _ | ⟨f4, _ | ⟨f5, _ | ⟨f6, _ | ⟨f7, _ | ⟨f8, _ | ⟨f9, _ | ⟨f10, _ | ⟨x, g⟩⟩⟩⟩⟩⟩⟩⟩⟩⟩⟩⟩
  case cons.cons.cons.cons.cons.cons.cons.cons.cons.cons.cons.nil => exact ⟨f0, f1, f2, f3, f4, f5, f6, f7, f8, f9, f10, rfl⟩
  all_goals simp at h

/-- DEC_RSP on eleven bytes (R102). -/
theorem decodeResponse_eleven (f0 f1 f2 f3 f4 f5 f6 f7 f8 f9 f10 : Byte) :
    decodeResponse [f0, f1, f2, f3, f4, f5, f6, f7, f8, f9, f10] =
      if f1 ≠ 0x0B#8 then .error .declaredLen else if f0 ≠ 0x02#8 then .error .stx
      else if f9 ≠ 0x03#8 then .error .etx
      else .ok ⟨f2, (f2 &&& 1#8).setWidth 1, packPayload f3 f4 f5, f6, f7, f8, f10⟩ := by
  have e : f1.toNat = 11 ↔ f1 = 0x0B#8 := ⟨fun h => BitVec.eq_of_toNat_eq (by simpa using h), fun h => by simp [h]⟩
  simp [decodeResponse, byteAt, Config.rspLen, Config.stx, Config.etx, e]

theorem decodeResponse_length {f : List Byte} (h : f.length ≠ 11) : decodeResponse f = .error .len := by
  simp [decodeResponse, Config.rspLen, h]

/-- What a decoded record is (R102, R103). -/
theorem decodeResponse_ok {f : List Byte} {d : DecodedRecord} : decodeResponse f = .ok d ↔
    ∃ c b3 b4 b5 b6 b7 b8 chk : Byte,
      f = [0x02#8, 0x0B#8, c, b3, b4, b5, b6, b7, b8, 0x03#8, chk] ∧
      d = ⟨c, (c &&& 1#8).setWidth 1, packPayload b3 b4 b5, b6, b7, b8, chk⟩ := by
  constructor
  · intro h
    by_cases hl : f.length = 11
    · obtain ⟨f0, f1, f2, f3, f4, f5, f6, f7, f8, f9, f10, rfl⟩ := eleven_bytes hl
      rw [decodeResponse_eleven] at h
      split at h
      · cases h
      · split at h
        · cases h
        · split at h
          · cases h
          · simp_all
    · rw [decodeResponse_length hl] at h; cases h
  · rintro ⟨c, b3, b4, b5, b6, b7, b8, chk, rfl, rfl⟩
    simp [decodeResponse_eleven]

end Sys2Proof.Machine
end

