-- ==== Sys2Proof/Laws/Exec.lean ====
section
/-! SUPPORT. What each meaning can answer, said once: if it answers a next state, then one of these cases holds. -/

namespace Sys2Proof.Machine

open Sys2Proof.Safety

theorem execReqReset_next {s t : State} :
    execReqReset s = .next t ↔ s.initialised = true ∧ s.requestReset.answer .ok = t := by
  simp [execReqReset, unlessRefused_next]

/-- The three paths of TX_SELECT (R152). -/
theorem execTxSelect_next {en : Byte} {m k r : Bit} {s t : State} : execTxSelect en m k r s = .next t ↔
    s.initialised = true ∧ s.phase = .idle ∧
    ((s.resetReq = true ∧ s.startReset.answer (.tx (resetFrame s.ack) .reset) = t) ∨
     (s.resetReq = false ∧ s.rtxPending = true ∧ s.startReplay.answer (.tx s.lastTx .replay) = t) ∨
     (s.resetReq = false ∧ s.rtxPending = false ∧
       (s.startFresh (freshFrame s.ack en m k r)).answer (.tx (freshFrame s.ack en m k r) .fresh) = t)) := by
  unfold execTxSelect
  simp only [unlessRefused_next, initRefusal_eq_none, phaseRefusal_eq_none]
  cases s.resetReq <;> cases s.rtxPending <;> simp

/-- The three ends of TX_RESULT (R153). -/
theorem execTxResult_next {w : BitVec 2} {s t : State} : execTxResult w s = .next t ↔
    w ≠ 3#2 ∧ s.initialised = true ∧ s.phase = .txWait ∧
    ((s.txKind = .reset ∧ s.endTick.answer (writeResponse w) = t) ∨
     (s.txKind ≠ .reset ∧ w = 0#2 ∧ s.awaitResponse.answer (writeResponse w) = t) ∨
     (s.txKind ≠ .reset ∧ w ≠ 0#2 ∧ s.retain.answer (writeResponse w) = t)) := by
  unfold execTxResult
  simp only [unlessRefused_next, initRefusal_eq_none, phaseRefusal_eq_none, writeResultRefusal_eq_none]
  by_cases hk : s.txKind = .reset <;> by_cases hw : w = 0#2 <;> simp [hk, hw, failExchange]

/-- The state an Accepted exchange leaves (R154). -/
def acceptedState (d : DecodedRecord) (s : State) : State :=
  ((s.accept (deviceState d)).returnRecord d).answer
    (.accepted d (deviceState d) (deviceEvents d) (cashboxPresent d) (creditIndex d) (diagnostics d))

/-- What a byte sequence is judged to be (R154, R183). -/
theorem judgeResponse_next {f : List Byte} {s t : State} : judgeResponse f s = .next t ↔
    (f = [] ∧ s.retain.answer .timeout = t) ∨
    (f ≠ [] ∧ ackBitsMatch (frameBytes s.lastTx) f = false ∧ s.retain.answer .ackMismatch = t) ∨
    (f ≠ [] ∧ ackBitsMatch (frameBytes s.lastTx) f = true ∧ checksumHolds f .rsp = false ∧
      s.retain.answer .checksumError = t) ∨
    (∃ r, f ≠ [] ∧ ackBitsMatch (frameBytes s.lastTx) f = true ∧ checksumHolds f .rsp = true ∧
      decodeResponse f = .error r ∧ s.retain.answer (.invalidCommand r) = t) ∨
    (∃ d, f ≠ [] ∧ ackBitsMatch (frameBytes s.lastTx) f = true ∧ checksumHolds f .rsp = true ∧
      decodeResponse f = .ok d ∧ acceptedState d s = t) := by
  by_cases h0 : f = []
  · simp [judgeResponse, h0, failExchange]
  · have h0' : f.length ≠ 0 := by simpa using h0
    unfold judgeResponse
    rw [if_neg h0']
    cases ha : ackBitsMatch (frameBytes s.lastTx) f <;> cases hc : checksumHolds f .rsp <;>
      cases hd : decodeResponse f <;>
      simp [h0, failExchange, acceptExchange, acceptedState]

theorem execRxResult_next {rx : ReadResult} {s t : State} : execRxResult rx s = .next t ↔
    readRefusal rx = none ∧ s.initialised = true ∧ s.phase = .rxWait ∧
    ((rx = .timeout ∧ s.retain.answer .timeout = t) ∨ ∃ f, rx = .bytes f ∧ judgeResponse f s = .next t) := by
  unfold execRxResult
  simp only [unlessRefused_next, initRefusal_eq_none, phaseRefusal_eq_none]
  cases rx <;> simp [failExchange]

/-- An exchange that RX_RESULT completes either failed and retained its frame, or was accepted (R154, R185). -/
theorem execRxResult_ends {rx : ReadResult} {s t : State} (h : execRxResult rx s = .next t) :
    s.initialised = true ∧ s.phase = .rxWait ∧
    ((∃ r, t = s.retain.answer r ∧ (r = .timeout ∨ r = .ackMismatch ∨ r = .checksumError ∨ ∃ e, r = .invalidCommand e)) ∨
     ∃ f d, rx = .bytes f ∧ ackBitsMatch (frameBytes s.lastTx) f = true ∧ checksumHolds f .rsp = true ∧
      decodeResponse f = .ok d ∧ t = acceptedState d s) := by
  obtain ⟨-, hi, hp, h'⟩ := execRxResult_next.mp h
  refine ⟨hi, hp, ?_⟩
  rcases h' with ⟨-, rfl⟩ | ⟨f, rfl, hj⟩
  · exact .inl ⟨_, rfl, .inl rfl⟩
  · rcases judgeResponse_next.mp hj with ⟨-, rfl⟩ | ⟨-, -, rfl⟩ | ⟨-, -, -, rfl⟩ | ⟨r, -, -, -, -, rfl⟩ | ⟨d, -, ha, hc, hd, rfl⟩
    · exact .inl ⟨_, rfl, .inl rfl⟩
    · exact .inl ⟨_, rfl, .inr (.inl rfl)⟩
    · exact .inl ⟨_, rfl, .inr (.inr (.inl rfl))⟩
    · exact .inl ⟨_, rfl, .inr (.inr (.inr ⟨r, rfl⟩))⟩
    · exact .inr ⟨f, d, rfl, ha, hc, hd, rfl⟩

/-- DEC_RSP's two answers (R102). -/
theorem execDecRsp_next {f : List Byte} {s t : State} : execDecRsp f s = .next t ↔
    f.length ≤ 254 ∧
    ((∃ r, decodeResponse f = .error r ∧ s.answer (.invalidCommand r) = t) ∨
     ∃ d, decodeResponse f = .ok d ∧ (s.returnRecord d).answer (.record d) = t) := by
  unfold execDecRsp
  simp only [unlessRefused_next, seqRefusal_eq_none]
  cases decodeResponse f <;> simp

/-- A pure operation answers, and beyond its answer it may only hand out a record (R109, R133). -/
theorem exec_pure_next {i : Instr} (hi : isPure i = true) {s t : State} (h : exec i s = .next t) :
    ∃ r, t = s.answer r ∨ ∃ f d, i = .decRsp f ∧ decodeResponse f = .ok d ∧ t = (s.returnRecord d).answer r := by
  cases i
  case decRsp f =>
    obtain ⟨-, ⟨r, -, rfl⟩ | ⟨d, hd, rfl⟩⟩ := execDecRsp_next.mp h
    · exact ⟨_, .inl rfl⟩
    · exact ⟨_, .inr ⟨f, d, rfl, hd, rfl⟩⟩
  all_goals first
    | (simp [isPure] at hi; done)
    | (simp only [exec, execEncCmd, execEncReset, execChecksum, execChecksumOk, execAckMatches, execDecState,
        execDecEvents, execDecCashbox, execDecCredit, execDecDiag, unlessRefused_next, Host.Outcome.next.injEq] at h
       first
        | exact ⟨_, .inl h.symm⟩
        | exact ⟨_, .inl h.2.symm⟩
        | exact ⟨_, .inl h.2.2.symm⟩)

/-- No operation touches the request queue or the recorded refusals. -/
theorem exec_keeps_ports {i : Instr} {s t : State} (h : exec i s = .next t) :
    t.requests = s.requests ∧ t.refusals = s.refusals := by
  by_cases hi : isPure i = true
  · obtain ⟨r, rfl | ⟨f, d, -, -, rfl⟩⟩ := exec_pure_next hi h <;> simp
  · cases i <;> simp [isPure] at hi
    case init =>
      simp only [exec, execInit, Host.Outcome.next.injEq] at h
      subst h; simp
    case reqReset =>
      obtain ⟨-, rfl⟩ := execReqReset_next.mp h
      simp
    case txSelect =>
      obtain ⟨-, -, ⟨-, rfl⟩ | ⟨-, -, rfl⟩ | ⟨-, -, rfl⟩⟩ := execTxSelect_next.mp h <;> simp
    case txResult =>
      obtain ⟨-, -, -, ⟨-, rfl⟩ | ⟨-, -, rfl⟩ | ⟨-, -, rfl⟩⟩ := execTxResult_next.mp h <;> simp
    case rxResult =>
      obtain ⟨-, -, ⟨r, rfl, -⟩ | ⟨f, d, -, -, -, -, rfl⟩⟩ := execRxResult_ends h <;> simp [acceptedState]

/-- What one step does: nothing without a request; else the decoded operation, or a recorded refusal. -/
theorem step_cases {s t : State} (h : step s = .next t) :
    (s.requests = [] ∧ t = s) ∨
    ∃ bs rest, s.requests = bs :: rest ∧
      ((∃ e, decode bs = .error e ∧ t = (s.leaveRequests rest).refuse (.undecodable e)) ∨
       (∃ i, decode bs = .ok i ∧ exec i (s.leaveRequests rest) = .next t) ∨
       (∃ i r, decode bs = .ok i ∧ exec i (s.leaveRequests rest) = .refused r ∧
         t = (s.leaveRequests rest).refuse r)) := by
  unfold step at h
  split at h
  · exact .inl ⟨‹_›, by cases h; rfl⟩
  · rename_i bs rest hr
    refine .inr ⟨bs, rest, hr, ?_⟩
    unfold runRequest at h
    split at h
    · exact .inl ⟨_, ‹_›, by cases h; rfl⟩
    · rename_i i hi
      cases he : exec i (s.leaveRequests rest) with
      | next u => rw [he] at h; cases h; exact .inr (.inl ⟨i, hi, he⟩)
      | fault r => cases r
      | refused r => rw [he] at h; cases h; exact .inr (.inr ⟨i, r, hi, he, rfl⟩)

/-- A run takes its first step and goes on from there. -/
theorem run_succ_next {n : Nat} {s t : State} (h : step s = .next t) :
    Sys2Proof.core.run (n + 1) s = Sys2Proof.core.run n t := by
  have h' : Sys2Proof.core.step s = .next t := h
  exact (Host.Core.run.eq_2 Sys2Proof.core s n).trans (by rw [h'])

end Sys2Proof.Machine
end

