-- ==== Sys2Proof/Laws/PerInstr.lean ====
section
/-! SUPPORT. Facts about every operation as syntax, one lemma for each constructor: the first byte of its request
(`OpByte`), and how long its request can be (`RequestFits`). -/

namespace Sys2Proof.Laws

namespace OpByte

/-- A request begins with its OP code, zero-extended, a byte no greater than the last code of the table
(30_encoding.md R76, R80). -/
def Statement (i : Instr) : Prop := (encode i).head? = some ((opCode i).setWidth 8) ∧ (opCode i).toNat < 22

theorem init : Statement (.init) := ⟨rfl, by simp [opCode]⟩
theorem reqReset : Statement (.reqReset) := ⟨rfl, by simp [opCode]⟩
theorem txSelect (en : Byte) (mode : Bit) (stack : Bit) (reject : Bit) : Statement (.txSelect en mode stack reject) := ⟨rfl, by simp [opCode]⟩
theorem txResult (wres : BitVec 2) : Statement (.txResult wres) := ⟨rfl, by simp [opCode]⟩
theorem rxResult (rx : ReadResult) : Statement (.rxResult rx) := ⟨rfl, by simp [opCode]⟩
theorem encCmd (ctrl : Byte) (en : Byte) (esc : Byte) : Statement (.encCmd ctrl en esc) := ⟨rfl, by simp [opCode]⟩
theorem encReset (ack : Bit) : Statement (.encReset ack) := ⟨rfl, by simp [opCode]⟩
theorem checksum (f : List Byte) : Statement (.checksum f) := ⟨rfl, by simp [opCode]⟩
theorem checksumOk (f : List Byte) (kind : FrameKind) : Statement (.checksumOk f kind) := ⟨rfl, by simp [opCode]⟩
theorem ackMatches (sent : List Byte) (received : List Byte) : Statement (.ackMatches sent received) := ⟨rfl, by simp [opCode]⟩
theorem decRsp (f : List Byte) : Statement (.decRsp f) := ⟨rfl, by simp [opCode]⟩
theorem decState (d : DecodedRecord) : Statement (.decState d) := ⟨rfl, by simp [opCode]⟩
theorem decEvents (d : DecodedRecord) : Statement (.decEvents d) := ⟨rfl, by simp [opCode]⟩
theorem decCashbox (d : DecodedRecord) : Statement (.decCashbox d) := ⟨rfl, by simp [opCode]⟩
theorem decCredit (d : DecodedRecord) : Statement (.decCredit d) := ⟨rfl, by simp [opCode]⟩
theorem decDiag (d : DecodedRecord) : Statement (.decDiag d) := ⟨rfl, by simp [opCode]⟩

end OpByte

/-! The lengths of the operands' bytes. -/

theorem length_seqBytes {f : List Byte} (h : seqFits f = true) : (seqBytes f).length ≤ 255 := by
  have hf : f.length ≤ 254 := seqFits_iff.mp h
  simp [seqBytes]; omega

theorem length_readBytes {rx : ReadResult} (h : readFits rx = true) : (readBytes rx).length ≤ 255 := by
  cases rx with
  | timeout => simp [readBytes]
  | bytes f => exact length_seqBytes h

namespace RequestFits

/-- A well-formed operation's request is at most as long as the longest request (30_encoding.md R80). -/
def Statement (i : Instr) : Prop := i.wellFormed = true → (encode i).length ≤ Config.maxRequestBytes

theorem init : Statement (.init) := by
  intro _
  simp [encode, operandBytes, Config.maxRequestBytes]
theorem reqReset : Statement (.reqReset) := by
  intro _
  simp [encode, operandBytes, Config.maxRequestBytes]
theorem txSelect (en : Byte) (mode : Bit) (stack : Bit) (reject : Bit) : Statement (.txSelect en mode stack reject) := by
  intro _
  simp [encode, operandBytes, Config.maxRequestBytes]
theorem txResult (wres : BitVec 2) : Statement (.txResult wres) := by
  intro _
  simp [encode, operandBytes, Config.maxRequestBytes]
theorem rxResult (rx : ReadResult) : Statement (.rxResult rx) := by
  intro h
  have := length_readBytes (rx := rx) h
  simp [encode, operandBytes, Config.maxRequestBytes]; omega
theorem encCmd (ctrl : Byte) (en : Byte) (esc : Byte) : Statement (.encCmd ctrl en esc) := by
  intro _
  simp [encode, operandBytes, Config.maxRequestBytes]
theorem encReset (ack : Bit) : Statement (.encReset ack) := by
  intro _
  simp [encode, operandBytes, Config.maxRequestBytes]
theorem checksum (f : List Byte) : Statement (.checksum f) := by
  intro h
  have := length_seqBytes (f := f) h
  simp [encode, operandBytes, Config.maxRequestBytes]; omega
theorem checksumOk (f : List Byte) (kind : FrameKind) : Statement (.checksumOk f kind) := by
  intro h
  have := length_seqBytes (f := f) h
  simp [encode, operandBytes, Config.maxRequestBytes]; omega
theorem ackMatches (sent : List Byte) (received : List Byte) : Statement (.ackMatches sent received) := by
  intro h
  obtain ⟨h1, h2⟩ : seqFits sent = true ∧ seqFits received = true := by simpa [Instr.wellFormed] using h
  have := length_seqBytes h1
  have := length_seqBytes h2
  simp [encode, operandBytes, Config.maxRequestBytes]; omega
theorem decRsp (f : List Byte) : Statement (.decRsp f) := by
  intro h
  have := length_seqBytes (f := f) h
  simp [encode, operandBytes, Config.maxRequestBytes]; omega
theorem decState (d : DecodedRecord) : Statement (.decState d) := by
  intro _
  simp [encode, operandBytes, recordBytes, Config.maxRequestBytes]
theorem decEvents (d : DecodedRecord) : Statement (.decEvents d) := by
  intro _
  simp [encode, operandBytes, recordBytes, Config.maxRequestBytes]
theorem decCashbox (d : DecodedRecord) : Statement (.decCashbox d) := by
  intro _
  simp [encode, operandBytes, recordBytes, Config.maxRequestBytes]
theorem decCredit (d : DecodedRecord) : Statement (.decCredit d) := by
  intro _
  simp [encode, operandBytes, recordBytes, Config.maxRequestBytes]
theorem decDiag (d : DecodedRecord) : Statement (.decDiag d) := by
  intro _
  simp [encode, operandBytes, recordBytes, Config.maxRequestBytes]

end RequestFits

end Sys2Proof.Laws
end

