-- ==== Sys2Proof/Laws/Requests.lean ====
section
/-! SUPPORT. What placing a request does: the next step performs exactly it. -/

namespace Sys2Proof.Machine

theorem decodeTableWord_eq_some {nbits w : Nat} {i : Instr} :
    decodeTableWord nbits w = some i ↔ decode (tableRequest nbits w) = .ok i := by
  unfold decodeTableWord
  split <;> simp_all

/-- The step after placing a table word performs the operation it stands for, at the state before, whose run holds the
operation's record operand; a refusal of the operation is recorded. -/
theorem step_withFetchWord {s : State} {nbits w : Nat} {i : Instr} (h : decodeTableWord nbits w = some i) :
    step (s.withFetchWord nbits w) =
      settle { s with produced := holdRecords (some i) s.produced }
        (exec i { s with produced := holdRecords (some i) s.produced }) := by
  have hd := decodeTableWord_eq_some.mp h
  simp [step, State.withFetchWord, State.placeRequest, State.leaveRequests, runRequest, hd, h]

/-- The next step of a program given to the port performs its first operation. -/
theorem step_withProgram {s : State} {i : Instr} {ops : List Instr} (h : decode (encode i) = .ok i) :
    step (s.withProgram (i :: ops)) = settle (s.withProgram ops) (exec i (s.withProgram ops)) := by
  simp [step, State.withProgram, State.leaveRequests, runRequest, h]

end Sys2Proof.Machine
end

