-- ==== Sys2Proof/Machine/Text.lean ====
section
/-! DEFINITION. The textual syntax of 30_encoding.md R80 for an operation: its mnemonic and its operands. It is notation
only: no step reads it. -/

namespace Sys2Proof.Machine

/-- A hexadecimal digit. -/
def hexDigit (n : Nat) : String :=
  ["0", "1", "2", "3", "4", "5", "6", "7", "8", "9", "A", "B", "C", "D", "E", "F"].getD n "?"

/-- Two hex digits, as a frame listing writes a byte (00_scope.md R10). -/
def hexByte (b : Byte) : String := hexDigit (b.toNat / 16) ++ hexDigit (b.toNat % 16)

/-- A byte operand, `0xNN`. -/
def byteText (b : Byte) : String := "0x" ++ hexByte b

/-- A 1-bit operand. -/
def bitText (b : Bit) : String := hexDigit b.toNat

/-- The bytes of a sequence with a space between two. -/
def spacedBytes : List Byte → String
  | [] => ""
  | [b] => hexByte b
  | b :: c :: rest => hexByte b ++ " " ++ spacedBytes (c :: rest)

/-- A byte sequence "in square brackets as two-digit hex bytes in index order". -/
def seqText (f : List Byte) : String := "[" ++ spacedBytes f ++ "]"

/-- A write result: `OK`, `WriteError`, `PortError`; the reserved code as its number. -/
def writeResultText (w : BitVec 2) : String :=
  if w = 0#2 then "OK" else if w = 1#2 then "WriteError" else if w = 2#2 then "PortError" else "3"

/-- A read result: `TIMEOUT`, or the byte sequence. -/
def readText : ReadResult → String
  | .timeout => "TIMEOUT"
  | .bytes f => seqText f

/-- A frame kind. -/
def kindText : FrameKind → String
  | .cmd => "CMD"
  | .rsp => "RSP"

/-- The mnemonic of an operation (30_encoding.md R76). -/
def mnemonicText : Instr → String
  | .init => "INIT"
  | .reqReset => "REQ_RESET"
  | .txSelect _ _ _ _ => "TX_SELECT"
  | .txResult _ => "TX_RESULT"
  | .rxResult _ => "RX_RESULT"
  | .encCmd _ _ _ => "ENC_CMD"
  | .encReset _ => "ENC_RESET"
  | .checksum _ => "CHECKSUM"
  | .checksumOk _ _ => "CHECKSUM_OK"
  | .ackMatches _ _ => "ACK_MATCHES"
  | .decRsp _ => "DEC_RSP"
  | .decState _ => "DEC_STATE"
  | .decEvents _ => "DEC_EVENTS"
  | .decCashbox _ => "DEC_CASHBOX"
  | .decCredit _ => "DEC_CREDIT"
  | .decDiag _ => "DEC_DIAG"

/-- The operands as R80's examples write them. A record has no notation in the spec: its request bytes stand for it
(log entry 8). -/
def operandText : Instr → String
  | .init => ""
  | .reqReset => ""
  | .txSelect en mode stack reject =>
    " en=" ++ byteText en ++ ", mode=" ++ bitText mode ++ ", stack=" ++ bitText stack ++ ", reject=" ++ bitText reject
  | .txResult w => " " ++ writeResultText w
  | .rxResult rx => " " ++ readText rx
  | .encCmd ctrl en esc => " ctrl=" ++ byteText ctrl ++ ", en=" ++ byteText en ++ ", esc=" ++ byteText esc
  | .encReset ack => " ack=" ++ bitText ack
  | .checksum f => " f=" ++ seqText f
  | .checksumOk f kind => " kind=" ++ kindText kind ++ ", f=" ++ seqText f
  | .ackMatches sent received => " sent=" ++ seqText sent ++ ", received=" ++ seqText received
  | .decRsp f => " f=" ++ seqText f
  | .decState d => " d=" ++ seqText (recordBytes d)
  | .decEvents d => " d=" ++ seqText (recordBytes d)
  | .decCashbox d => " d=" ++ seqText (recordBytes d)
  | .decCredit d => " d=" ++ seqText (recordBytes d)
  | .decDiag d => " d=" ++ seqText (recordBytes d)

/-- One line of a program (R80). -/
def operationText (i : Instr) : String := mnemonicText i ++ operandText i

end Sys2Proof.Machine
end

