-- ==== Sys2Proof/Tests/Slice0.lean ====
section
/-! SUPPORT. The model's own tests. Expected results are the spec's: 95_test_vectors.md (vectors and programs, by their
section), the examples of the operations' rules, and words written out from 30_encoding.md R76, R77, R80. After them, for
each statement of Certificates/Slice0/Obligations.lean that has hypotheses, a concrete case that meets them. -/

namespace Sys2Proof.Tests

open Sys2Proof.Machine Sys2Proof.Safety

/-! ## States and frames -/

/-- `[02 08 10 7F 10 00 03 77]`. -/
def cmd0 : TxFrame := ⟨0x02#8, 0x08#8, 0x10#8, 0x7F#8, 0x10#8, 0x00#8, 0x03#8, 0x77#8⟩

/-- `G` of 95_test_vectors.md 2.2: `[02 0B 20 01 10 00 00 11 11 03 3A]`. -/
def goodRsp : List Byte :=
  [0x02#8, 0x0B#8, 0x20#8, 0x01#8, 0x10#8, 0x00#8, 0x00#8, 0x11#8, 0x11#8, 0x03#8, 0x3A#8]

/-- S-ST1: `[02 0B 21 01 10 00 00 11 11 03 3B]`. -/
def lateRsp : List Byte :=
  [0x02#8, 0x0B#8, 0x21#8, 0x01#8, 0x10#8, 0x00#8, 0x00#8, 0x11#8, 0x11#8, 0x03#8, 0x3B#8]

/-- The record of `goodRsp` as 95_test_vectors.md 2.1 gives it. -/
def goodRecord : DecodedRecord := ⟨0x20#8, 0#1, 0x001001#24, 0x00#8, 0x11#8, 0x11#8, 0x3A#8⟩

/-- A record with STATE, EVTERR, STATUS as given, else as `goodRecord`. -/
def recordOf (state evterr status : Byte) : DecodedRecord := { goodRecord with payload := status ++ evterr ++ state }

/-- IDLE, ACK = 0, LAST_TX = `cmd0`, the record of `goodRsp` returned. -/
def idle0 : State := { State.reset with ack := 0#1, lastTx := cmd0, produced := [goodRecord] }

/-- TX_WAIT of a fresh tick. -/
def txWait0 : State := { idle0 with phase := .txWait }

/-- RX_WAIT of a fresh tick. -/
def rxWait0 : State := { idle0 with phase := .rxWait }

/-- A state that holds one record. -/
def holding (d : DecodedRecord) : State := { idle0 with produced := [d] }

/-- A byte sequence of a given length. -/
def filled (n : Nat) : List Byte := List.replicate n 0x00#8

@[simp] theorem length_filled (n : Nat) : (filled n).length = n := List.length_replicate

def nextOf : StepResult → Option State
  | .next s => some s
  | .fault _ => none
  | .refused _ => none

def refusalOf : StepResult → Option Refusal
  | .next _ => none
  | .fault _ => none
  | .refused r => some r

/-- What an operation answers at a state. -/
def answerOf (i : Instr) (s : State) : Option Response := (nextOf (exec i s)).bind (·.response)

/-! ## Ill-formed operations are refused by the check -/

theorem test_wf_write_result_three : Instr.wellFormed (.txResult 3#2) = false := by decide
theorem test_wf_rx_255 : Instr.wellFormed (.rxResult (.bytes (filled 255))) = false := by
  simp [Instr.wellFormed, readFits, seqFits, Config.nMax]
theorem test_wf_checksum_255 : Instr.wellFormed (.checksum (filled 255)) = false := by
  simp [Instr.wellFormed, seqFits, Config.nMax]
theorem test_wf_checksumOk_255 : Instr.wellFormed (.checksumOk (filled 255) .cmd) = false := by
  simp [Instr.wellFormed, seqFits, Config.nMax]
theorem test_wf_ackMatches_sent_255 : Instr.wellFormed (.ackMatches (filled 255) []) = false := by
  simp [Instr.wellFormed, seqFits, Config.nMax]
theorem test_wf_ackMatches_received_255 : Instr.wellFormed (.ackMatches [] (filled 255)) = false := by
  simp [Instr.wellFormed, seqFits, Config.nMax]
theorem test_wf_decRsp_255 : Instr.wellFormed (.decRsp (filled 255)) = false := by
  simp [Instr.wellFormed, seqFits, Config.nMax]
theorem test_wf_record_ack : ∀ mk ∈ [Instr.decState, .decEvents, .decCashbox, .decCredit, .decDiag],
    (mk { goodRecord with ack := 1#1 }).wellFormed = false := by decide

/-! ## Words written out from R76, R77 and R80, and the "enc" columns of the programs -/

theorem test_dec_init : decode [0b00000#8] = .ok .init := by decide
theorem test_dec_reqReset : decode [0b00001#8] = .ok .reqReset := by decide
theorem test_dec_txSelect : decode [0b00010#8, 0x7F#8, 0x01#8, 0x00#8, 0x01#8] = .ok (.txSelect 0x7F#8 1#1 0#1 1#1) := by decide
theorem test_dec_txResult : decode [0b00011#8, 0x02#8] = .ok (.txResult 2#2) := by decide
theorem test_dec_rxResult_bytes : decode ([0b00100#8, 0x0B#8] ++ goodRsp) = .ok (.rxResult (.bytes goodRsp)) := by decide
theorem test_dec_rxResult_timeout : decode [0b00100#8, 0xFF#8] = .ok (.rxResult .timeout) := by decide
theorem test_dec_encCmd : decode [0b01000#8, 0x10#8, 0x7F#8, 0x30#8] = .ok (.encCmd 0x10#8 0x7F#8 0x30#8) := by decide
theorem test_dec_encReset : decode [0b01001#8, 0x01#8] = .ok (.encReset 1#1) := by decide
theorem test_dec_checksum : decode [0b01010#8, 0x03#8, 0x02#8, 0x08#8, 0x03#8] = .ok (.checksum [0x02#8, 0x08#8, 0x03#8]) := by decide
theorem test_dec_checksumOk : decode [0b01011#8, 0x01#8, 0x02#8, 0x01#8] = .ok (.checksumOk [0x02#8] .rsp) := by decide
theorem test_dec_ackMatches : decode [0b01100#8, 0x01#8, 0x02#8, 0x02#8, 0x02#8, 0x0B#8] = .ok (.ackMatches [0x02#8] [0x02#8, 0x0B#8]) := by decide
theorem test_dec_decRsp : decode [0b10000#8, 0x00#8] = .ok (.decRsp []) := by decide

/-- The OP codes of the DEC_* operations are R76's; the record's nine bytes are the model's (log entry 8). -/
theorem test_dec_records :
    [0b10001#8, 0b10010#8, 0b10011#8, 0b10100#8, 0b10101#8].map
      (fun op => (decode [op, 0x20#8, 0x00#8, 0x01#8, 0x10#8, 0x00#8, 0x00#8, 0x11#8, 0x11#8, 0x3A#8]).toOption) =
    [some (.decState goodRecord), some (.decEvents goodRecord), some (.decCashbox goodRecord),
      some (.decCredit goodRecord), some (.decDiag goodRecord)] := by decide

/-- The fields of spec/opcode_table.json: eight bits, the operation of each row. -/
theorem test_table_words :
    [0x00, 0x01, 0x02, 0x03, 0x04, 0x08, 0x09, 0x0A, 0x0B, 0x0C, 0x10].map (decodeTableWord 8) =
    [some .init, some .reqReset, some (.txSelect 0#8 0#1 0#1 0#1), some (.txResult 0#2), some (.rxResult (.bytes [])),
      some (.encCmd 0#8 0#8 0#8), some (.encReset 0#1), some (.checksum []), some (.checksumOk [] .cmd),
      some (.ackMatches [] []), some (.decRsp [])] := by decide

theorem test_table_reserved : [0x05, 0x0D, 0x16, 0x1F, 0x20].map (decodeTableWord 8) = [none, none, none, none, none] := by
  decide

/-- The step after placing a word runs it: DEC_STATE on a record of zeros answers Offline (D8). -/
theorem test_withFetchWord :
    (nextOf (step (State.reset.withFetchWord 8 0x11))).bind (·.response) = some (.state .offline) := by decide

/-- Of the sixteen words, only TX_RESULT and RX_RESULT are refused right after reset (PHASE is IDLE). -/
theorem test_first_step :
    [0x00, 0x01, 0x02, 0x03, 0x04, 0x08, 0x09, 0x0A, 0x0B, 0x0C, 0x10, 0x11, 0x12, 0x13, 0x14, 0x15].map
      (fun w => (nextOf (step (State.reset.withFetchWord 8 w))).map (·.refusals)) =
    [some [], some [], some [], some [.outOfPhase], some [.outOfPhase], some [], some [], some [], some [], some [],
      some [], some [], some [], some [], some [], some []] := by decide

/-- R80's own examples of the textual form. -/
theorem test_text :
    [Instr.txSelect 0x7F#8 1#1 0#1 0#1, .txResult 0#2, .rxResult .timeout, .encCmd 0x10#8 0x7F#8 0x10#8].map operationText =
    ["TX_SELECT en=0x7F, mode=1, stack=0, reject=0", "TX_RESULT OK", "RX_RESULT TIMEOUT",
      "ENC_CMD ctrl=0x10, en=0x7F, esc=0x10"] := by decide

/-! ## Meanings: 95_test_vectors.md -/

/-- 2.3, first row. -/
theorem test_init : (nextOf (exec .init { rxWait0 with rtxPending := true, resetReq := true, lastState := .stacking })).map
    (fun t => (t.rtxPending, t.resetReq, t.phase, t.lastState)) = some (false, false, .idle, .offline) := by decide

/-- 2.3, last row, in RX_WAIT (R151's example). -/
theorem test_reqReset : nextOf (exec .reqReset rxWait0) = some { rxWait0 with resetReq := true, response := some .ok } := by
  decide

/-- R152's example: bit 7 of `en` dropped. -/
theorem test_txSelect_fresh : answerOf (.txSelect 0xFF#8 1#1 0#1 0#1) idle0 = some (.tx cmd0 .fresh) := by decide

/-- 2.3: IDLE A=1 P=1 Q=1 gives the reset frame, A=0 P=1 Q=0. -/
theorem test_txSelect_reset :
    (nextOf (exec (.txSelect 0#8 0#1 0#1 0#1) { idle0 with ack := 1#1, rtxPending := true, resetReq := true })).map
      (fun t => (t.response, t.ack, t.rtxPending, t.resetReq, t.phase)) =
    some (some (.tx ⟨0x02#8, 0x08#8, 0x61#8, 0x7F#8, 0x7F#8, 0x7F#8, 0x03#8, 0x16#8⟩ .reset), 0#1, true, false, .txWait) := by
  decide

/-- 2.3: a failed write of a fresh frame. -/
theorem test_txResult_writeError : (nextOf (exec (.txResult 1#2) txWait0)).map
    (fun t => (t.response, t.ack, t.rtxPending, t.phase)) = some (some .writeError, 0#1, true, .idle) := by decide

/-- 2.3: a failed write of a reset frame is not retried. -/
theorem test_txResult_reset : (nextOf (exec (.txResult 1#2) { txWait0 with txKind := .reset })).map
    (fun t => (t.response, t.rtxPending, t.phase)) = some (some .writeError, false, .idle) := by decide

/-- 2.3: Accepted, Idling, no event, cashbox true, credit 0. -/
theorem test_rxResult_accepted : (nextOf (exec (.rxResult (.bytes goodRsp)) rxWait0)).map
    (fun t => (t.response, t.ack, t.rtxPending, t.phase, t.lastState)) =
    some (some (.accepted goodRecord .idling 0#6 true 0#3 0#5), 1#1, false, .idle, .idling) := by decide

/-- 2.3: the error rows, in their order. -/
theorem test_rxResult_errors :
    [.timeout, .bytes [], .bytes [0x02#8, 0x0B#8], .bytes lateRsp, .bytes (goodRsp.set 10 0x3B#8), .bytes (goodRsp.take 5),
      .bytes (goodRsp.set 0 0x00#8), .bytes ((goodRsp.set 1 0x0C#8).set 10 0x3D#8)].map
      (fun rx => answerOf (.rxResult rx) rxWait0) =
    [some .timeout, some .timeout, some .ackMismatch, some .ackMismatch, some .checksumError, some .checksumError,
      some (.invalidCommand .stx), some (.invalidCommand .declaredLen)] := by decide

/-- 2.1: nothing masked (D14). -/
theorem test_encCmd_unmasked : answerOf (.encCmd 0xFF#8 0xFF#8 0xFF#8) idle0 =
    some (.frame ⟨0x02#8, 0x08#8, 0xFF#8, 0xFF#8, 0xFF#8, 0x00#8, 0x03#8, 0xF7#8⟩) := by decide

theorem test_encCmd : answerOf (.encCmd 0x10#8 0x80#8 0x70#8) idle0 =
    some (.frame ⟨0x02#8, 0x08#8, 0x10#8, 0x80#8, 0x70#8, 0x00#8, 0x03#8, 0xE8#8⟩) := by decide

/-- 2.1. -/
theorem test_encReset : answerOf (.encReset 1#1) idle0 =
    some (.frame ⟨0x02#8, 0x08#8, 0x61#8, 0x7F#8, 0x7F#8, 0x7F#8, 0x03#8, 0x16#8⟩) := by decide

/-- 2.2: a command with nothing in its checksum slot, a response, the short frames (D28). -/
theorem test_checksum :
    [[0x02#8, 0x08#8, 0x10#8, 0x7F#8, 0x10#8, 0x00#8, 0x03#8, 0x00#8], goodRsp, [], [0x02#8, 0x08#8, 0x03#8]].map
      (fun f => answerOf (.checksum f) idle0) =
    [some (.byte 0x77#8), some (.byte 0x3A#8), some (.byte 0x00#8), some (.byte 0x00#8)] := by decide

/-- 2.2: what the check sees (bytes 1, 2, 3, 8, 10) and what it does not (STX, ETX). -/
theorem test_checksumOk_bit_flips : [1, 2, 3, 8, 10, 0, 9].map
    (fun j => answerOf (.checksumOk (goodRsp.set j (goodRsp.getD j 0#8 ^^^ 1#8)) .rsp) idle0) =
    [some (.bool false), some (.bool false), some (.bool false), some (.bool false), some (.bool false),
      some (.bool true), some (.bool true)] := by decide

/-- 2.2: the lengths. -/
theorem test_checksumOk_kinds :
    [(frameBytes cmd0, FrameKind.cmd), (frameBytes cmd0, .rsp), (goodRsp, .cmd), (goodRsp, .rsp), ([], .rsp)].map
      (fun p => answerOf (.checksumOk p.1 p.2) idle0) =
    [some (.bool true), some (.bool false), some (.bool false), some (.bool true), some (.bool false)] := by decide

/-- 2.2, the ACK_MATCHES rows with `sent` ack 0. -/
theorem test_ackMatches : [goodRsp, lateRsp, [0x02#8, 0x0B#8], [0x00#8, 0x00#8, 0xFE#8]].map
    (fun f => answerOf (.ackMatches (frameBytes cmd0) f) idle0) =
    [some (.bool true), some (.bool false), some (.bool false), some (.bool true)] := by decide

/-- 2.1, DEC_RSP framing. -/
theorem test_decRsp_framing :
    [[], goodRsp.take 10, goodRsp ++ [0x00#8], goodRsp.set 1 0x0C#8, goodRsp.set 0 0x00#8, goodRsp.set 9 0x04#8].map
      (fun f => answerOf (.decRsp f) idle0) =
    [some (.invalidCommand .len), some (.invalidCommand .len), some (.invalidCommand .len),
      some (.invalidCommand .declaredLen), some (.invalidCommand .stx), some (.invalidCommand .etx)] := by decide

/-- 2.1: the record, and a wrong checksum that still decodes. -/
theorem test_decRsp_record : [goodRsp, goodRsp.set 10 0x3B#8].map (fun f => answerOf (.decRsp f) idle0) =
    [some (.record goodRecord), some (.record { goodRecord with chk := 0x3B#8 })] := by decide

/-- STATE, EVTERR, STATUS of 2.1's accessor table, its first nine rows. -/
def payloads : List DecodedRecord :=
  [recordOf 0x7F#8 0x1F#8 0x3F#8, recordOf 0x0F#8 0x10#8 0x00#8, recordOf 0x06#8 0x10#8 0x00#8, recordOf 0x00#8 0x0C#8 0x00#8,
    recordOf 0x00#8 0x00#8 0x00#8, recordOf 0x10#8 0x10#8 0x00#8, recordOf 0x50#8 0x03#8 0x03#8, recordOf 0x01#8 0x10#8 0x3F#8,
    recordOf 0x01#8 0x10#8 0xC7#8]

theorem test_decState : payloads.map (fun d => answerOf (.decState d) (holding d)) =
    [some (.state .acceptorFailure), some (.state .stacking), some (.state .escrowed), some (.state .stackerFull),
      some (.state .offline), some (.state .offline), some (.state .offline), some (.state .acceptorFailure),
      some (.state .acceptorFailure)] := by decide

/-- 1.1: the states one by one (S-ST1 to S-ST8). -/
theorem test_decState_each :
    [recordOf 0x01#8 0x10#8 0#8, recordOf 0x02#8 0x10#8 0#8, recordOf 0x04#8 0x10#8 0#8, recordOf 0x08#8 0x10#8 0#8,
      recordOf 0x20#8 0x10#8 0#8, recordOf 0#8 0x14#8 0#8, recordOf 0#8 0x18#8 0#8, recordOf 0#8 0x10#8 0x04#8].map
      (fun d => answerOf (.decState d) (holding d)) =
    [some (.state .idling), some (.state .accepting), some (.state .escrowed), some (.state .stacking),
      some (.state .returning), some (.state .billJammed), some (.state .stackerFull), some (.state .acceptorFailure)] := by
  decide

theorem test_decEvents : payloads.map (fun d => answerOf (.decEvents d) (holding d)) =
    [some (.events 0b111111#6), some (.events 0#6), some (.events 0#6), some (.events 0#6), some (.events 0#6),
      some (.events 0b000001#6), some (.events 0b111111#6), some (.events 0b110000#6), some (.events 0b110000#6)] := by decide

/-- 1.2: Returned, Cheated, BillRejected, PowerUp one by one, as sets (S-EV2 to S-EV5). -/
theorem test_decEvents_each :
    [recordOf 0x41#8 0x10#8 0#8, recordOf 0x20#8 0x11#8 0#8, recordOf 0x01#8 0x12#8 0#8, recordOf 0#8 0#8 0x01#8].map
      (fun d => eventSet (deviceEvents d)) = [[.returned], [.cheated], [.billRejected], [.powerUp]] := by decide

theorem test_decCashbox : payloads.map (fun d => answerOf (.decCashbox d) (holding d)) =
    [some (.bool true), some (.bool true), some (.bool true), some (.bool false), some (.bool false), some (.bool true),
      some (.bool false), some (.bool true), some (.bool true)] := by decide

/-- 1.3: S-CR0 to S-CR7. -/
theorem test_decCredit : [0x00#8, 0x08#8, 0x10#8, 0x18#8, 0x20#8, 0x28#8, 0x30#8, 0x38#8].map
    (fun status => answerOf (.decCredit (recordOf 0x01#8 0x10#8 status)) (holding (recordOf 0x01#8 0x10#8 status))) =
    [some (.credit 0#3), some (.credit 1#3), some (.credit 2#3), some (.credit 3#3), some (.credit 4#3), some (.credit 5#3),
      some (.credit 6#3), some (.credit 7#3)] := by decide

/-- 2.1, the DIAG column: 0xC7 status, then the five bits one by one, then bytes 7 and 8 zero. -/
theorem test_decDiag :
    [recordOf 0x01#8 0x10#8 0xC7#8, recordOf 0x81#8 0x10#8 0#8, recordOf 0x01#8 0xF0#8 0#8, recordOf 0x01#8 0x10#8 0x40#8,
      { goodRecord with rsv6 := 0x01#8 }, { goodRecord with ctrl := 0x01#8, ack := 1#1 },
      { goodRecord with aux7 := 0#8, aux8 := 0#8 }].map (fun d => answerOf (.decDiag d) (holding d)) =
    [some (.diag 0b00100#5), some (.diag 0b00001#5), some (.diag 0b00010#5), some (.diag 0b00100#5), some (.diag 0b01000#5),
      some (.diag 0b10000#5), some (.diag 0#5)] := by decide

/-- The codes of 10_state.md R25 and R26 and of 41_codec.md R102 and R110. -/
theorem test_codes :
    ([Phase.idle, .txWait, .rxWait].map (fun p => (phaseCode p).toNat), [TxKind.fresh, .replay, .reset].map (fun k => (txKindCode k).toNat),
      [Reason.len, .declaredLen, .stx, .etx].map (fun r => (reasonCode r).toNat),
      [DeviceState.offline, .idling, .accepting, .escrowed, .stacking, .returning, .billJammed, .stackerFull,
        .acceptorFailure].map (fun d => (stateCode d).toNat)) =
    ([0, 1, 2], [0, 1, 2], [0, 1, 2, 3], [0, 1, 2, 3, 4, 5, 6, 7, 8]) := by decide

/-- P5, line 2: RX_RESULT in IDLE is recorded as a refusal and changes no register. -/
theorem test_refusal_recorded :
    nextOf (step { idle0 with requests := [[0x04#8, 0x02#8, 0x02#8, 0x0B#8], [0x01#8]] }) =
    some { idle0 with requests := [[0x01#8]], refusals := [.outOfPhase] } := by decide

/-! ## Cases that meet the statements' hypotheses

A theorem `hyp_<Name>` shows, for the statement Obligations.<Name>, states and operands that meet its hypotheses, clause by
clause, at the edges of their ranges. -/

theorem hyp_DecodeOfEncode :
    Instr.wellFormed (.txResult 2#2) = true ∧ Instr.wellFormed (.rxResult .timeout) = true ∧
    Instr.wellFormed (.rxResult (.bytes (filled 254))) = true ∧ Instr.wellFormed (.checksumOk [] .rsp) = true ∧
    Instr.wellFormed (.ackMatches (filled 254) (filled 254)) = true ∧ Instr.wellFormed (.decDiag goodRecord) = true := by
  refine ⟨by decide, rfl, ?_, by decide, ?_, by decide⟩ <;> simp [Instr.wellFormed, readFits, seqFits, Config.nMax]

theorem hyp_EncodeOfDecode :
    decode [0x04#8, 0x00#8] = .ok (.rxResult (.bytes [])) ∧ decode [0x04#8, 0xFF#8] = .ok (.rxResult .timeout) ∧
    decode [0x09#8, 0x01#8] = .ok (.encReset 1#1) := by decide

theorem hyp_MalformedRequestsAreRefused :
    (∀ op ∈ [0x05#8, 0x07#8, 0x0D#8, 0x0F#8, 0x16#8, 0x1F#8, 0x20#8, 0xFF#8],
      (op : Byte).toNat ∉ [0, 1, 2, 3, 4, 8, 9, 10, 11, 12, 16, 17, 18, 19, 20, 21]) ∧
    3 ≤ (0x03#8 : Byte).toNat ∧ 3 ≤ (0xFF#8 : Byte).toNat ∧ 2 ≤ (0x02#8 : Byte).toNat ∧
    (∃ e, ({ idle0 with requests := [[0x05#8], [0x01#8]] } : State).requests = [0x05#8] :: [[0x01#8]] ∧
      decode [0x05#8] = .error e) := by
  refine ⟨by decide, by decide, by decide, by decide, _, rfl, rfl⟩

theorem hyp_StepPerformsTheDecodedOperation :
    (∃ i t, decode [0x01#8] = .ok i ∧ exec i { idle0 with requests := [] } = .next t) ∧
    (∃ i r, decode [0x03#8, 0x00#8] = .ok i ∧ exec i { idle0 with requests := [] } = .refused r) ∧ idle0.requests = [] :=
  ⟨⟨_, _, rfl, rfl⟩, ⟨_, _, rfl, rfl⟩, rfl⟩

theorem hyp_RefusedRequestChangesNoRegister :
    ∃ t, step { idle0 with requests := [[0x03#8, 0x00#8]] } = .next t ∧ t.refusals ≠ idle0.refusals :=
  ⟨_, rfl, by decide⟩

theorem hyp_OperationsCompleteExactlyWhenAllowed :
    idle0.initialised = true ∧ idle0.phase = .idle ∧ txWait0.phase = .txWait ∧ rxWait0.phase = .rxWait ∧
    (filled 254).length ≤ 254 ∧ ¬ (filled 255).length ≤ 254 ∧ goodRecord ∈ idle0.produced ∧
    { goodRecord with aux7 := 0x12#8 } ∉ idle0.produced := by
  refine ⟨rfl, rfl, rfl, rfl, by simp , by simp , by decide, by decide⟩

theorem hyp_RefusalsNameTheFirstReason :
    254 < (filled 255).length ∧ { goodRecord with aux7 := 0x12#8 } ∉ idle0.produced ∧
    idle0.initialised = true ∧ (2#2 : BitVec 2) ≠ 3#2 ∧ readFits (.bytes goodRsp) = true ∧
    txWait0.phase ≠ .idle ∧ rxWait0.phase ≠ .txWait ∧ idle0.phase ≠ .rxWait := by
  refine ⟨by simp , by decide, rfl, by decide, by decide, by decide, by decide, by decide⟩

theorem hyp_SequencerWaitsForInit :
    ({ idle0 with initialised := false } : State).initialised = false ∧ (0#2 : BitVec 2) ≠ 3#2 ∧ readFits .timeout = true ∧
    (∃ t, exec .init { idle0 with initialised := false } = .next t) ∧
    (∃ t, exec (.encReset 0#1) { idle0 with initialised := false } = .next t) :=
  ⟨rfl, by decide, rfl, ⟨_, rfl⟩, ⟨_, rfl⟩⟩

theorem hyp_DecRspValidatesAndUnpacks :
    (filled 0).length ≠ 11 ∧ (filled 10).length ≠ 11 ∧ (filled 12).length ≠ 11 ∧ (filled 254).length ≤ 254 ∧
    (0x0A#8 : Byte) ≠ 0x0B#8 ∧ (0x00#8 : Byte) ≠ 0x02#8 ∧ (0x04#8 : Byte) ≠ 0x03#8 := by
  refine ⟨by decide, by decide, by decide, by simp , by decide, by decide, by decide⟩

theorem hyp_DecStatePicksTheHighestPriority :
    goodRecord ∈ idle0.produced ∧ stateBit .idling = some 0 ∧ goodRecord.payload.getLsbD 0 = true := by decide

theorem hyp_DecEventsGathersTheEventBits :
    recordOf 0x50#8 0x03#8 0x03#8 ∈ (holding (recordOf 0x50#8 0x03#8 0x03#8)).produced := by decide

theorem hyp_DecCashboxReadsItsBit : goodRecord ∈ idle0.produced ∧
    ∃ t, exec (.decRsp goodRsp) idle0 = .next t ∧ t.response = some (.record goodRecord) :=
  ⟨by decide, _, rfl, by decide⟩

theorem hyp_DecCreditReadsItsField : recordOf 0#8 0#8 0x38#8 ∈ (holding (recordOf 0#8 0#8 0x38#8)).produced ∧
    ∃ t d, exec (.decRsp (goodRsp.set 5 0xC7#8)) idle0 = .next t ∧ t.response = some (.record d) :=
  ⟨by decide, _, _, rfl, rfl⟩

theorem hyp_DecDiagReportsReservedBits :
    { goodRecord with rsv6 := 0x80#8 } ∈ (holding { goodRecord with rsv6 := 0x80#8 }).produced := by decide

theorem hyp_AccessorsReadOnlyThePayload : ∃ d d' d'' : DecodedRecord, ∃ s : State,
    d ∈ s.produced ∧ d' ∈ s.produced ∧ d'' ∈ s.produced ∧ d ≠ d' ∧ d ≠ d'' ∧ d.payload = d'.payload ∧
    d.ctrl = d'.ctrl ∧ d.rsv6 = d'.rsv6 ∧ d.payload = d''.payload ∧ d.ctrl ≠ d''.ctrl :=
  ⟨goodRecord, { goodRecord with aux7 := 0x12#8 }, { goodRecord with ctrl := 0x21#8, ack := 1#1 },
    { idle0 with produced :=
      [goodRecord, { goodRecord with aux7 := 0x12#8 }, { goodRecord with ctrl := 0x21#8, ack := 1#1 }] }, by decide⟩

theorem hyp_PureOperationsTouchNoRegister :
    (∃ t t', isPure (.decRsp goodRsp) = true ∧ exec (.decRsp goodRsp) rxWait0 = .next t ∧
      exec (.decRsp goodRsp) idle0 = .next t') ∧
    isPure (.decDiag goodRecord) = true ∧ (Instr.decDiag goodRecord).wellFormed = true ∧
    ∀ d ∈ operandRecords (.decDiag goodRecord), d ∈ txWait0.produced :=
  ⟨⟨_, _, rfl, rfl, rfl⟩, rfl, by decide, by decide⟩

theorem hyp_PureOperationsAreIdempotent :
    ∃ t, isPure (.decRsp goodRsp) = true ∧ exec (.decRsp goodRsp) (holding (recordOf 0#8 0#8 0#8)) = .next t :=
  ⟨_, rfl, rfl⟩

theorem hyp_ChecksumXorsTheDataSpan :
    (filled 251).length + 3 ≤ 254 ∧ (filled 0).length + 3 ≤ 254 ∧ (filled 3).length < 4 ∧ (filled 0).length < 4 := by
  simp 

theorem hyp_ChecksumOkChecksLengthAndSum : goodRsp.length ≤ 254 ∧ (filled 254).length ≤ 254 := by
  simp [goodRsp]

theorem hyp_AckMatchesComparesAckBits : (filled 2).length ≤ 254 ∧ (filled 254).length ≤ 254 := by simp 

theorem hyp_EncodedFramesPassTheirCheck :
    (∃ t, exec (.encCmd 0xFF#8 0xFF#8 0xFF#8) rxWait0 = .next t) ∧ (∃ t, exec (.encReset 1#1) rxWait0 = .next t) :=
  ⟨⟨_, rfl⟩, ⟨_, rfl⟩⟩

theorem hyp_SingleBitErrorsAreDetected :
    exec (.checksumOk goodRsp .rsp) idle0 = .next { idle0 with response := some (.bool true) } ∧
    exec (.checksumOk (frameBytes cmd0) .cmd) idle0 = .next { idle0 with response := some (.bool true) } ∧
    (1 ≤ 8 ∧ 8 + 3 ≤ requiredLength .rsp) ∧ 10 + 1 = requiredLength .rsp ∧ (1 ≤ 5 ∧ 5 + 3 ≤ requiredLength .cmd) ∧
    7 + 1 = requiredLength .cmd := ⟨rfl, rfl, by decide, by decide, by decide, by decide⟩

theorem hyp_ChecksumMissesTheseErrors :
    List.Perm [0x0B#8, 0x20#8, 0x01#8] [0x01#8, 0x20#8, 0x0B#8] ∧ goodRsp.length ≤ 254 ∧
    7 + 3 ≤ requiredLength .rsp ∧ 8 + 3 ≤ requiredLength .rsp ∧ 10 + 1 = requiredLength .rsp ∧
    4 + 3 ≤ requiredLength .cmd ∧ 7 + 1 = requiredLength .cmd := by decide

theorem hyp_ReqResetSetsTheFlagOnly :
    idle0.initialised = true ∧ (∃ t, exec .reqReset rxWait0 = .next t) ∧ (∃ t, exec (.txResult 1#2) txWait0 = .next t) ∧
    (∃ t, exec (.rxResult (.bytes goodRsp)) rxWait0 = .next t) ∧
    (∃ t, ({ idle0 with resetReq := true } : State).resetReq = true ∧
      exec (.txSelect 0#8 0#1 0#1 0#1) { idle0 with resetReq := true } = .next t) :=
  ⟨rfl, ⟨_, rfl⟩, ⟨_, rfl⟩, ⟨_, rfl⟩, ⟨_, rfl, rfl⟩⟩

theorem hyp_TxSelectChoosesTheFrame :
    idle0.initialised = true ∧ idle0.phase = .idle ∧ idle0.resetReq = false ∧ idle0.rtxPending = false ∧
    ({ idle0 with rtxPending := true } : State).rtxPending = true ∧
    ({ idle0 with resetReq := true, rtxPending := true } : State).resetReq = true := by decide

theorem hyp_TxResultEndsOrContinuesTheTick :
    txWait0.initialised = true ∧ txWait0.phase = .txWait ∧ txWait0.txKind ≠ .reset ∧
    ({ txWait0 with txKind := .reset } : State).txKind = .reset := by decide

theorem hyp_RxResultFailuresInOrder :
    rxWait0.initialised = true ∧ rxWait0.phase = .rxWait ∧
    ([0x02#8, 0x0B#8] : List Byte).length < 3 ∧ (filled 254).length ≤ 254 ∧
    (lateRsp.getD 2 0#8).getLsbD 0 ≠ rxWait0.lastTx.ctrl.getLsbD 0 ∧
    (3 ≤ (goodRsp.take 3).length ∧ ((goodRsp.take 3).getD 2 0#8).getLsbD 0 = rxWait0.lastTx.ctrl.getLsbD 0 ∧
      ¬ ∃ (x0 x9 : Byte) (span : List Byte), span.length = 8 ∧
        goodRsp.take 3 = x0 :: span ++ [x9, span.foldr (fun a b => a ^^^ b) 0x00#8]) ∧
    (0x20#8 : Byte).getLsbD 0 = rxWait0.lastTx.ctrl.getLsbD 0 ∧
    (0x3D#8 : Byte) = 0x0C#8 ^^^ 0x20#8 ^^^ 0x01#8 ^^^ 0x10#8 ^^^ 0x00#8 ^^^ 0x00#8 ^^^ 0x11#8 ^^^ 0x11#8 ∧
    (0x3A#8 : Byte) = 0x0B#8 ^^^ 0x20#8 ^^^ 0x01#8 ^^^ 0x10#8 ^^^ 0x00#8 ^^^ 0x00#8 ^^^ 0x11#8 ^^^ 0x11#8 := by
  refine ⟨rfl, rfl, by decide, by simp , by decide, ⟨by decide, by decide, ?_⟩, by decide, by decide, by decide⟩
  rintro ⟨x0, x9, span, hl, h⟩
  have := congrArg List.length h
  simp [goodRsp, hl] at this

theorem hyp_RxResultAcceptsGoodResponses :
    rxWait0.initialised = true ∧ rxWait0.phase = .rxWait ∧ (0x20#8 : Byte).getLsbD 0 = rxWait0.lastTx.ctrl.getLsbD 0 ∧
    (0x3A#8 : Byte) = 0x0B#8 ^^^ 0x20#8 ^^^ 0x01#8 ^^^ 0x10#8 ^^^ 0x00#8 ^^^ 0x00#8 ^^^ 0x11#8 ^^^ 0x11#8 ∧
    goodRecord = ⟨0x20#8, (0x20#8 : Byte).setWidth 1, (0x00#8 : Byte) ++ (0x10#8 : Byte) ++ (0x01#8 : Byte), 0x00#8, 0x11#8,
      0x11#8, 0x3A#8⟩ ∧
    (∃ t, exec (.rxResult (.bytes goodRsp)) rxWait0 = .next t ∧ wasAccepted t) :=
  ⟨rfl, rfl, by decide, by decide, by decide, _, rfl, rfl⟩

theorem hyp_AcceptedReportsWhatTheAccessorsGive :
    ∃ t, exec (.rxResult (.bytes goodRsp)) rxWait0 = .next t ∧
      t.response = some (.accepted goodRecord .idling 0#6 true 0#3 0#5) := ⟨_, rfl, by decide⟩

theorem hyp_AckTogglesOnlyOnResetTickOrAcceptance :
    (∃ t f, exec (.txSelect 0#8 0#1 0#1 0#1) idle0 = .next t ∧ t.response = some (.tx f .fresh)) ∧
    (∃ t f, exec (.txSelect 0#8 0#1 0#1 0#1) { idle0 with resetReq := true } = .next t ∧ t.response = some (.tx f .reset) ∧
      isResetTick (.txSelect 0#8 0#1 0#1 0#1) { idle0 with resetReq := true }) ∧
    (∃ t, exec (.rxResult (.bytes goodRsp)) rxWait0 = .next t ∧ wasAccepted t) ∧
    (∃ t, exec (.rxResult .timeout) rxWait0 = .next t ∧ ¬ wasAccepted t ∧ ¬ isResetTick (.rxResult .timeout) rxWait0) ∧
    (∃ t, exec .init rxWait0 = .next t) := by
  refine ⟨⟨_, _, rfl, rfl⟩, ⟨_, _, rfl, rfl, ⟨_, _, _, _, rfl⟩, rfl⟩, ⟨_, rfl, rfl⟩, ⟨_, rfl, ?_, ?_⟩, _, rfl⟩
  · simp [wasAccepted, State.answer, outcomeOf]
  · rintro ⟨⟨_, _, _, _, h⟩, _⟩
    cases h

theorem hyp_LastTxHoldsTheFreshFrame : ∃ t, exec (.txSelect 0xFF#8 1#1 0#1 0#1) idle0 = .next t ∧
    t.response = some (.tx cmd0 .fresh) := ⟨_, rfl, by decide⟩

/-- One operation of each kind that the three statements on the registers tell apart. -/
theorem hyp_FlagsPhaseLastState :
    (∃ t, exec .init rxWait0 = .next t) ∧ (∃ t, exec .reqReset rxWait0 = .next t) ∧
    (∃ t, exec (.txSelect 0#8 0#1 0#1 0#1) { idle0 with resetReq := true } = .next t) ∧
    (∃ t, exec (.txSelect 0#8 0#1 0#1 0#1) { idle0 with rtxPending := true } = .next t) ∧
    (∃ t, exec (.txSelect 0#8 0#1 0#1 0#1) idle0 = .next t) ∧
    (∃ t, exec (.txResult 0#2) txWait0 = .next t) ∧ (∃ t, exec (.txResult 2#2) { txWait0 with txKind := .reset } = .next t) ∧
    (∃ t, exec (.rxResult .timeout) rxWait0 = .next t) ∧ (∃ t, exec (.checksum []) rxWait0 = .next t) :=
  ⟨⟨_, rfl⟩, ⟨_, rfl⟩, ⟨_, rfl⟩, ⟨_, rfl⟩, ⟨_, rfl⟩, ⟨_, rfl⟩, ⟨_, rfl⟩, ⟨_, rfl⟩, ⟨_, rfl⟩⟩

theorem hyp_FlagsAreSetAndClearedAsListed : ∃ t, exec (.txResult 1#2) txWait0 = .next t := ⟨_, rfl⟩
theorem hyp_PhaseFollowsTheTickOrder : ∃ t, exec (.txResult 0#2) txWait0 = .next t := ⟨_, rfl⟩

theorem hyp_LastStateChangesOnlyOnAcceptance :
    (∃ t, exec .init rxWait0 = .next t) ∧ ∃ t, exec (.rxResult .timeout) rxWait0 = .next t ∧ ¬ wasAccepted t :=
  ⟨⟨_, rfl⟩, _, rfl, by simp [wasAccepted, State.answer, outcomeOf]⟩

theorem hyp_ErrorEntryRetainsTheFrame :
    (∃ t, exec (.txResult 1#2) txWait0 = .next t ∧ txWait0.txKind ≠ .reset ∧ wasError t) ∧
    (∃ t, exec (.txResult 2#2) { txWait0 with txKind := .replay } = .next t ∧ wasError t) ∧
    (∃ t, exec (.rxResult .timeout) rxWait0 = .next t ∧ wasError t) :=
  ⟨⟨_, rfl, by decide, _, rfl, by decide, by decide⟩, ⟨_, rfl, _, rfl, by decide, by decide⟩,
    ⟨_, rfl, _, rfl, by decide, by decide⟩⟩

theorem hyp_OutcomesComeFromTheirOperations :
    (∃ t, exec (.rxResult (.bytes goodRsp)) rxWait0 = .next t) ∧ (∃ t, exec (.rxResult .timeout) rxWait0 = .next t) ∧
    (∃ t, exec (.txResult 1#2) txWait0 = .next t) ∧ (∃ t, exec (.txResult 2#2) txWait0 = .next t) ∧
    (∃ t, exec (.rxResult (.bytes lateRsp)) rxWait0 = .next t) ∧ (∃ t, exec (.rxResult (.bytes (goodRsp.take 3))) rxWait0 = .next t) ∧
    (∃ t, exec (.decRsp []) rxWait0 = .next t) :=
  ⟨⟨_, rfl⟩, ⟨_, rfl⟩, ⟨_, rfl⟩, ⟨_, rfl⟩, ⟨_, rfl⟩, ⟨_, rfl⟩, ⟨_, rfl⟩⟩

theorem hyp_OnlyResultsReportErrors :
    (∃ t, exec (.txResult 0#2) txWait0 = .next t) ∧ (∃ t, exec (.txResult 1#2) txWait0 = .next t) ∧
    (∃ t, exec (.txResult 2#2) txWait0 = .next t) ∧ (∃ t, exec (.txSelect 0#8 0#1 0#1 0#1) idle0 = .next t) ∧
    (∃ t, exec .reqReset idle0 = .next t) ∧ (∃ t, exec (.checksum []) idle0 = .next t ∧ isPure (.checksum []) = true) :=
  ⟨⟨_, rfl⟩, ⟨_, rfl⟩, ⟨_, rfl⟩, ⟨_, rfl⟩, ⟨_, rfl⟩, ⟨_, rfl, rfl⟩⟩

theorem hyp_InvalidCommandEventIsAccepted :
    rxWait0.initialised = true ∧ rxWait0.phase = .rxWait ∧ (0x20#8 : Byte).getLsbD 0 = rxWait0.lastTx.ctrl.getLsbD 0 ∧
    (0x02#8 : Byte).getLsbD 1 = true ∧
    (0x38#8 : Byte) = 0x0B#8 ^^^ 0x20#8 ^^^ 0x01#8 ^^^ 0x10#8 ^^^ 0x02#8 ^^^ 0x00#8 ^^^ 0x11#8 ^^^ 0x11#8 := by decide

theorem isCommandFrame_cmd0 : IsCommandFrame cmd0 where
  stx := rfl
  len := rfl
  ctrl := .inl rfl
  enable := by decide
  escrow := by decide
  rsvd := rfl
  etx := rfl
  chk := by decide

/-- The invariant holds of a state with LAST_TX = `cmd0` and the record of `goodRsp`, whatever else it holds, if no reset frame
is in flight. -/
theorem runInv_of {s : State} (hf : s.lastTx = cmd0) (hr : s.produced = [goodRecord]) (hk : s.txKind ≠ .reset) : RunInv s where
  rxKind := fun _ _ => hk
  frame := fun _ _ => hf ▸ isCommandFrame_cmd0
  records := fun d hd => by
    obtain rfl : d = goodRecord := by simpa [hr] using hd
    exact ⟨goodRsp, rfl⟩
  distinct := by simp [hr]

theorem hyp_StepKeepsTheRunInvariant :
    RunInv { rxWait0 with requests := [[0x04#8, 0xFF#8]] } ∧
      ∃ t, step { rxWait0 with requests := [[0x04#8, 0xFF#8]] } = .next t ∧ t.rtxPending = true :=
  ⟨runInv_of rfl rfl (by decide), _, rfl, rfl⟩

theorem hyp_TransmittedFramesAreWellFormed :
    (RunInv idle0 ∧ ∃ t, exec (.txSelect 0xFF#8 1#1 1#1 1#1) idle0 = .next t) ∧
    (RunInv { idle0 with rtxPending := true } ∧ ∃ t, exec (.txSelect 0#8 0#1 0#1 0#1) { idle0 with rtxPending := true } = .next t) ∧
    (RunInv { idle0 with resetReq := true } ∧ ∃ t, exec (.txSelect 0#8 0#1 0#1 0#1) { idle0 with resetReq := true } = .next t) :=
  ⟨⟨runInv_of rfl rfl (by decide), _, rfl⟩, ⟨runInv_of rfl rfl (by decide), _, rfl⟩,
    ⟨runInv_of rfl rfl (by decide), _, rfl⟩⟩

theorem ackAligned_rxWait0 : AckAligned rxWait0 := fun _ => by decide

theorem not_isResetTick_rx {rx : ReadResult} {s : State} : ¬ isResetTick (.rxResult rx) s := by
  rintro ⟨⟨_, _, _, _, h⟩, _⟩
  cases h

theorem not_isResetTick_of {i : Instr} {s : State} (h : s.resetReq = false) : ¬ isResetTick i s := by
  simp [isResetTick, h]

theorem hyp_RetainedAckBitFollowsAck :
    (∃ t, exec (.rxResult .timeout) rxWait0 = .next t ∧ ¬ isResetTick (.rxResult .timeout) rxWait0 ∧ AckAligned rxWait0 ∧
      LastTxLive t) ∧ (∃ t, exec .init rxWait0 = .next t) ∧
    (∃ t f, exec (.txSelect 0#8 0#1 0#1 0#1) idle0 = .next t ∧ t.response = some (.tx f .fresh)) :=
  ⟨⟨_, rfl, not_isResetTick_rx, ackAligned_rxWait0, .inl rfl⟩, ⟨_, rfl⟩, _, _, rfl, rfl⟩

theorem hyp_FrameInFlightIsLastTx : ∃ t u, exec (.txSelect 0#8 0#1 0#1 0#1) idle0 = .next t ∧ t.txKind ≠ .reset ∧
    Path (fun _ i _ => i ≠ .init ∧ ∀ en m k r, i ≠ .txSelect en m k r) t u ∧ u.phase = .rxWait ∧ u.resetReq = true :=
  ⟨_, _, rfl, by decide, .step (.txResult 0#2) rfl ⟨by simp, by simp⟩ (.step .reqReset rfl ⟨by simp, by simp⟩ (.refl _)), rfl,
    rfl⟩

theorem hyp_RetainedFrameIsReplayedUntilAccepted : ∃ u, ({ idle0 with rtxPending := true } : State).rtxPending = true ∧
    Path (fun _ i t => i ≠ .init ∧ ¬ wasAccepted t) { idle0 with rtxPending := true } u ∧ u.initialised = true ∧
    u.phase = .idle ∧ u.resetReq = false ∧ u ≠ { idle0 with rtxPending := true } := by
  refine ⟨_, rfl, .step (.txSelect 0#8 0#1 0#1 0#1) rfl ⟨by simp, ?_⟩
    (.step (.txResult 1#2) rfl ⟨by simp, ?_⟩ (.refl _)), rfl, rfl, rfl, by decide⟩ <;>
  simp [wasAccepted, State.answer, outcomeOf, writeResponse]

/-- The state after `rxWait0` accepts `goodRsp`. -/
def accepted0 : State := (rxWait0.accept .idling).answer (.accepted goodRecord .idling 0#6 true 0#3 0#5)

/-- A duplicate of the response just accepted, and the next response before its time, each read in the next tick. -/
theorem hyp_DuplicateResponsesAreNeverAccepted :
    exec (.rxResult (.bytes goodRsp)) rxWait0 = .next accepted0 ∧ wasAccepted accepted0 ∧ AckAligned rxWait0 ∧
    (∃ v f, exec (.txSelect 0x7F#8 1#1 0#1 0#1) accepted0 = .next v ∧ ¬ accepted0.resetReq = true ∧
      v.response = some (.tx f .fresh)) ∧
    (∃ u v, Path (fun s i t => i ≠ .init ∧ ¬ isResetTick i s ∧ ¬ wasAccepted t) accepted0 u ∧
      exec (.rxResult (.bytes goodRsp)) u = .next v ∧ 3 ≤ goodRsp.length ∧
      goodRsp.getD 2 0x00#8 &&& 0x01#8 ≠ accepted0.ack.setWidth 8) := by
  refine ⟨rfl, rfl, ackAligned_rxWait0, ⟨_, _, rfl, by decide, rfl⟩, _, _,
    .step (.txSelect 0x7F#8 1#1 0#1 0#1) rfl ⟨by simp, not_isResetTick_of rfl, ?_⟩
      (.step (.txResult 0#2) rfl ⟨by simp, not_isResetTick_of rfl, ?_⟩ (.refl _)), rfl, by decide, by decide⟩ <;>
  simp [wasAccepted, State.answer, outcomeOf, writeResponse]

theorem hyp_LastTxAfterInitIsNeverObserved :
    (∃ t, exec .init rxWait0 = .next t) ∧ AgreeButUnread idle0 { idle0 with lastTx := default } ∧
    idle0 ≠ { idle0 with lastTx := default } :=
  ⟨⟨_, rfl⟩, ⟨rfl, .inr (by simp [LastTxLive, idle0, State.reset])⟩, by decide⟩

theorem hyp_TickOrderIsNeverRefused :
    idle0.initialised = true ∧ idle0.phase = .idle ∧ (0#2 : BitVec 2) ≠ 3#2 ∧ readFits (.bytes (filled 254)) = true := by
  refine ⟨rfl, rfl, by decide, by simp [readFits, seqFits, Config.nMax]⟩

/-- Program P4 from its line 6. -/
theorem hyp_ResetTickKeepsTheRetainedFrame :
    ∃ s s1 s2 s3 s4 s5 s6 : State, s.resetReq = true ∧ s.rtxPending = true ∧
      exec (.txSelect 0x7F#8 1#1 0#1 0#1) s = .next s1 ∧ exec (.txResult 0#2) s1 = .next s2 ∧
      exec (.txSelect 0x7F#8 1#1 0#1 0#1) s2 = .next s3 ∧ exec (.txResult 0#2) s3 = .next s4 ∧
      exec (.rxResult (.bytes goodRsp)) s4 = .next s5 ∧ wasAccepted s5 ∧ exec (.txSelect 0x7F#8 1#1 0#1 0#1) s5 = .next s6 :=
  ⟨{ idle0 with resetReq := true, rtxPending := true }, _, _, _, _, _, _, rfl, rfl, rfl, rfl, rfl, rfl, rfl, rfl, rfl⟩

theorem hyp_StaleResetAnswerIsMismatched : ∀ p : Bool,
    ∃ s s1 s2 s3 s4 s5 : State, s.resetReq = true ∧ s.rtxPending = p ∧ 3 ≤ goodRsp.length ∧
      goodRsp.getD 2 0x00#8 &&& 0x01#8 = s.ack.setWidth 8 ∧ s.lastTx.ctrl &&& 0x01#8 = s.ack.setWidth 8 ∧
      exec (.txSelect 0x7F#8 1#1 0#1 0#1) s = .next s1 ∧ exec (.txResult 0#2) s1 = .next s2 ∧
      exec (.txSelect 0x7F#8 1#1 0#1 0#1) s2 = .next s3 ∧ exec (.txResult 0#2) s3 = .next s4 ∧
      exec (.rxResult (.bytes goodRsp)) s4 = .next s5
  | false => ⟨{ idle0 with resetReq := true }, _, _, _, _, _, rfl, rfl, by decide, by decide, by decide, rfl, rfl, rfl, rfl, rfl⟩
  | true => ⟨{ idle0 with resetReq := true, rtxPending := true }, _, _, _, _, _, rfl, rfl, by decide, by decide, by decide,
      rfl, rfl, rfl, rfl, rfl⟩

end Sys2Proof.Tests
end

section
/-! Proofs about the ACK register (10_state.md R21): the frames that carry it, and the operations that write it. -/

namespace Sys2Proof.Machine

open Sys2Proof.Safety

/-! ### The frames TX_SELECT builds carry ACK -/

/-- Bit 0 of a reset frame's control byte is ACK (R65). -/
theorem resetCtrl_ackBit (a : Bit) : resetCtrl a &&& 1#8 = a.setWidth 8 := by
  revert a; decide

@[simp] theorem resetFrame_ctrl (a : Bit) : (resetFrame a).ctrl = resetCtrl a := rfl

@[simp] theorem freshFrame_ctrl (a : Bit) (en : Byte) (m k r : Bit) :
    (freshFrame a en m k r).ctrl = commandCtrl a := rfl

/-- A frame TX_SELECT builds, and does not replay, carries ACK in bit 0 of CTRL (R21, R152). -/
theorem execTxSelect_builtFrame_ackBit {en : Byte} {m k r : Bit} {s t : State} {f : TxFrame} {kind : TxKind}
    (h : execTxSelect en m k r s = .next t) (hf : t.response = some (.tx f kind)) (hk : kind ≠ .replay) :
    f.ctrl &&& 1#8 = s.ack.setWidth 8 := by
  obtain ⟨-, -, ⟨-, rfl⟩ | ⟨-, -, rfl⟩ | ⟨-, -, rfl⟩⟩ := execTxSelect_next.mp h
  · obtain ⟨rfl, -⟩ : resetFrame s.ack = f ∧ TxKind.reset = kind := by simpa using hf
    rw [resetFrame_ctrl, resetCtrl_ackBit]
  · obtain ⟨-, hreplay⟩ : s.lastTx = f ∧ TxKind.replay = kind := by simpa using hf
    exact absurd hreplay.symm hk
  · obtain ⟨rfl, -⟩ : freshFrame s.ack en m k r = f ∧ TxKind.fresh = kind := by simpa using hf
    rw [freshFrame_ctrl, commandCtrl_ackBit]

/-! ### ACK after each operation -/

@[simp] theorem wasAccepted_answer (s : State) (r : Response) :
    wasAccepted (s.answer r) ↔ outcomeOf r = .accepted := by
  simp [wasAccepted]

theorem wasAccepted_acceptedState (d : DecodedRecord) (s : State) : wasAccepted (acceptedState d s) := rfl

@[simp] theorem acceptedState_ack (d : DecodedRecord) (s : State) : (acceptedState d s).ack = ~~~s.ack := rfl

/-- TX_SELECT inverts ACK on its reset path, and only there (R152). -/
theorem execTxSelect_ack {en : Byte} {m k r : Bit} {s t : State} (h : execTxSelect en m k r s = .next t) :
    (s.resetReq = true → t.ack = ~~~s.ack) ∧ (¬ s.resetReq = true → t.ack = s.ack) := by
  obtain ⟨-, -, ⟨hr, rfl⟩ | ⟨hr, -, rfl⟩ | ⟨hr, -, rfl⟩⟩ := execTxSelect_next.mp h <;> simp [hr]

/-- RX_RESULT inverts ACK on acceptance, and only then (R154, R185). -/
theorem execRxResult_ack {rx : ReadResult} {s t : State} (h : execRxResult rx s = .next t) :
    (wasAccepted t → t.ack = ~~~s.ack) ∧ (¬ wasAccepted t → t.ack = s.ack) := by
  obtain ⟨-, -, ⟨r, rfl, hr⟩ | ⟨f, d, -, -, -, -, rfl⟩⟩ := execRxResult_ends h
  · have hfail : outcomeOf r ≠ .accepted := by
      rcases hr with rfl | rfl | rfl | ⟨e, rfl⟩ <;> simp [outcomeOf]
    simp [hfail]
  · simp [wasAccepted_acceptedState]

theorem execTxResult_keeps_ack {w : BitVec 2} {s t : State} (h : execTxResult w s = .next t) : t.ack = s.ack := by
  obtain ⟨-, -, -, ⟨-, rfl⟩ | ⟨-, -, rfl⟩ | ⟨-, -, rfl⟩⟩ := execTxResult_next.mp h <;> simp

theorem exec_pure_keeps_ack {i : Instr} (hi : isPure i = true) {s t : State} (h : exec i s = .next t) :
    t.ack = s.ack := by
  obtain ⟨r, rfl | ⟨f, d, -, -, rfl⟩⟩ := exec_pure_next hi h <;> simp

theorem exec_init_ack {s t : State} (h : exec .init s = .next t) : t.ack = Config.ackInit := by
  cases h
  simp

/-- A reset tick and an acceptance both invert ACK (R21). -/
theorem exec_inverts_ack {i : Instr} {s t : State} (h : exec i s = .next t)
    (hw : isResetTick i s ∨ ((∃ rx, i = .rxResult rx) ∧ wasAccepted t)) : t.ack = ~~~s.ack := by
  rcases hw with ⟨⟨en, m, k, r, rfl⟩, hreset⟩ | ⟨⟨rx, rfl⟩, hacc⟩
  · exact (execTxSelect_ack h).1 hreset
  · exact (execRxResult_ack h).1 hacc

/-- Nothing but INIT, a reset tick and an acceptance writes ACK (R21). -/
theorem exec_keeps_ack {i : Instr} {s t : State} (h : exec i s = .next t) (hi : i ≠ .init)
    (hw : ¬ (isResetTick i s ∨ ((∃ rx, i = .rxResult rx) ∧ wasAccepted t))) : t.ack = s.ack := by
  cases i
  case init => exact absurd rfl hi
  case reqReset =>
    obtain ⟨-, rfl⟩ := execReqReset_next.mp h
    simp
  case txSelect en m k r => exact (execTxSelect_ack h).2 fun hr => hw (.inl ⟨⟨en, m, k, r, rfl⟩, hr⟩)
  case txResult => exact execTxResult_keeps_ack h
  case rxResult rx => exact (execRxResult_ack h).2 fun ha => hw (.inr ⟨⟨rx, rfl⟩, ha⟩)
  all_goals exact exec_pure_keeps_ack rfl h

/-- Settles O36: the frames TX_SELECT builds carry ACK; a reset tick and an acceptance invert it, INIT and reset give
it ACK_INIT, and every other operation keeps it. -/
theorem ackTogglesOnlyOnResetTickOrAcceptance : Obligations.AckTogglesOnlyOnResetTickOrAcceptance := by
  unfold Obligations.AckTogglesOnlyOnResetTickOrAcceptance
  exact ⟨fun _ _ _ _ _ _ _ _ => execTxSelect_builtFrame_ackBit,
    fun _ _ _ h hi => ⟨exec_inverts_ack h, exec_keeps_ack h hi⟩, rfl, fun _ _ => exec_init_ack⟩

end Sys2Proof.Machine
end

section
/-! Proofs about the codec operations with fixed results (41_codec.md R101, R106, R107): the two reset frames, and the
accessors of the cashbox bit and the credit field, read from a record and from the bytes it was decoded from. -/

namespace Sys2Proof.Machine

open Sys2Proof.Laws

/-! ### The reset frames -/

theorem exec_encReset (a : Bit) (s : State) : exec (.encReset a) s = .next (s.answer (.frame (resetFrame a))) := rfl

/-- The bytes of a reset frame, its checksum that of the frame with byte 7 still zero (R65, R73). -/
theorem frameBytes_resetFrame (a : Bit) : frameBytes (resetFrame a) =
    [0x02#8, 0x08#8, resetCtrl a, 0x7F#8, 0x7F#8, 0x7F#8, 0x03#8,
      checksumOf [0x02#8, 0x08#8, resetCtrl a, 0x7F#8, 0x7F#8, 0x7F#8, 0x03#8, 0x00#8]] := rfl

/-- CTRL bit 4 is clear in a reset frame, whichever its ack bit (R65). -/
theorem resetCtrl_bit4 (a : Bit) : (resetCtrl a).getLsbD 4 = false := by
  revert a; decide

/-- Settles O12: ENC_RESET answers the reset frame of its operand, one of two. -/
theorem encResetBuildsTheFixedFrame : Obligations.EncResetBuildsTheFixedFrame := by
  unfold Obligations.EncResetBuildsTheFixedFrame
  intro s
  refine ⟨?_, ?_, fun a => ⟨resetFrame a, exec_encReset a s, resetFrame_ctrl a, resetCtrl_bit4 a,
    frameBytes_resetFrame a, rfl⟩, rfl, rfl⟩
  · rw [exec_encReset, resetFrame_eq, if_pos rfl, State.answer]
  · rw [exec_encReset, resetFrame_eq, if_neg (by decide), State.answer]

/-! ### The accessors on a returned record -/

/-- DEC_CASHBOX on a record the run has returned (R106). -/
theorem exec_decCashbox_of_mem {d : DecodedRecord} {s : State} (h : d ∈ s.produced) :
    exec (.decCashbox d) s = .next (s.answer (.bool (cashboxPresent d))) := by
  rw [exec, execDecCashbox, recordRefusal_eq_none.mpr h, unlessRefused_none]

/-- DEC_CREDIT on a record the run has returned (R107). -/
theorem exec_decCredit_of_mem {d : DecodedRecord} {s : State} (h : d ∈ s.produced) :
    exec (.decCredit d) s = .next (s.answer (.credit (creditIndex d))) := by
  rw [exec, execDecCredit, recordRefusal_eq_none.mpr h, unlessRefused_none]

/-- A record DEC_RSP answers is the one decoded from its bytes, and may be an operand from then on (R77, R102). -/
theorem exec_decRsp_record {f : List Byte} {s t : State} {d : DecodedRecord} (h : exec (.decRsp f) s = .next t)
    (hd : t.response = some (.record d)) : decodeResponse f = .ok d ∧ d ∈ t.produced := by
  obtain ⟨-, ⟨r, -, rfl⟩ | ⟨d', hok, rfl⟩⟩ := execDecRsp_next.mp h
  · simp at hd
  · obtain rfl : d' = d := by simpa using hd
    exact ⟨hok, by simp [mem_noteRecord]⟩

/-- The payload of a record DEC_RSP answers packs bytes 3, 4 and 5 of the response (R81, R103). -/
theorem exec_decRsp_payload {c f3 f4 f5 f6 f7 f8 f10 : Byte} {s t : State} {d : DecodedRecord}
    (h : exec (.decRsp [0x02#8, 0x0B#8, c, f3, f4, f5, f6, f7, f8, 0x03#8, f10]) s = .next t)
    (hd : t.response = some (.record d)) : d.payload = f5 ++ f4 ++ f3 ∧ d ∈ t.produced := by
  obtain ⟨hok, hmem⟩ := exec_decRsp_record h hd
  obtain rfl : _ = d := by simpa [decodeResponse_eleven] using hok
  exact ⟨packPayload_eq_append f3 f4 f5, hmem⟩

/-! ### The cashbox bit -/

/-- Payload bit 12 is bit 4 of EVTERR, the payload's middle byte (R81). -/
theorem cashboxPresent_of_payload {d : DecodedRecord} {state evterr status : Byte}
    (h : d.payload = status ++ evterr ++ state) : cashboxPresent d = evterr.getLsbD 4 := by
  rw [cashboxPresent, h, BitVec.getLsbD_append, if_neg (by decide), BitVec.getLsbD_append, if_pos (by decide)]

/-- Bit 4 of a byte, by the mask of R106. -/
theorem getLsbD_four_eq_mask (b : Byte) : b.getLsbD 4 = ((b &&& 0x10#8) != 0x00#8) := by
  rw [show 0x10#8 = BitVec.twoPow 8 4 from rfl, BitVec.and_twoPow]
  cases b.getLsbD 4 <;> rfl

/-- Settles O16: DEC_CASHBOX answers payload bit 12, the bit EVTERR had in the response. -/
theorem decCashboxReadsItsBit : Obligations.DecCashboxReadsItsBit := by
  unfold Obligations.DecCashboxReadsItsBit
  refine ⟨fun d s hmem => ⟨exec_decCashbox_of_mem hmem, rfl, (OpByte.decCashbox d).1⟩, ?_⟩
  intro c f3 f4 f5 f6 f7 f8 f10 s t d h hd
  obtain ⟨hpayload, hmem⟩ := exec_decRsp_payload h hd
  refine ⟨?_, getLsbD_four_eq_mask f4⟩
  rw [exec_decCashbox_of_mem hmem, cashboxPresent_of_payload hpayload, State.answer]

/-! ### The credit field -/

/-- The credit index as a number: the payload shifted right by 19, modulo 8 (R107). -/
theorem creditIndex_toNat (d : DecodedRecord) : (creditIndex d).toNat = d.payload.toNat / 2 ^ 19 % 8 := by
  rw [creditIndex, BitVec.extractLsb'_toNat, Nat.shiftRight_eq_div_pow]

/-- Bits 5:3 of a byte, by the mask and shift of R107. -/
theorem extractLsb'_three_eq_mask (b : Byte) : b.extractLsb' 3 3 = ((b &&& 0x38#8) >>> 3).setWidth 3 := by
  revert b; decide

/-- Payload bits 21:19 are bits 5:3 of STATUS, the payload's high byte (R81). -/
theorem creditIndex_of_payload {d : DecodedRecord} {state evterr status : Byte}
    (h : d.payload = status ++ evterr ++ state) : creditIndex d = status.extractLsb' 3 3 := by
  rw [creditIndex, h, BitVec.extractLsb'_append_eq_of_le (by decide), BitVec.extractLsb'_append_eq_of_le (by decide)]

/-- Settles O17: DEC_CREDIT answers payload bits 21:19, the field STATUS had in the response. -/
theorem decCreditReadsItsField : Obligations.DecCreditReadsItsField := by
  unfold Obligations.DecCreditReadsItsField
  refine ⟨fun d s hmem => ⟨creditIndex d, exec_decCredit_of_mem hmem, creditIndex_toNat d, rfl,
    (OpByte.decCredit d).1⟩, ?_⟩
  intro c f3 f4 f5 f6 f7 f8 f10 s t d h hd
  obtain ⟨hpayload, hmem⟩ := exec_decRsp_payload h hd
  rw [exec_decCredit_of_mem hmem, creditIndex_of_payload hpayload, extractLsb'_three_eq_mask, State.answer]

end Sys2Proof.Machine
end

section
/-! Proofs about REQ_RESET (43_sequence.md R151): it sets its flag and nothing else, the results of an exchange in flight
do not depend on the flag, and the next TX_SELECT consumes it. -/

namespace Sys2Proof.Machine

/-! ### REQ_RESET itself -/

theorem exec_reqReset_of_initialised {s : State} (hi : s.initialised = true) :
    exec .reqReset s = .next (s.requestReset.answer .ok) :=
  execReqReset_next.mpr ⟨hi, rfl⟩

/-- Requests coalesce: a second one leaves the state the first one left (R151). -/
theorem exec_reqReset_again {s t : State} (h : exec .reqReset s = .next t) : exec .reqReset t = .next t := by
  obtain ⟨hi, rfl⟩ := execReqReset_next.mp h
  exact exec_reqReset_of_initialised hi

/-! ### A request does not disturb an exchange in flight

The state updates of TX_RESULT and RX_RESULT leave RESET_REQ alone, so on every path the request commutes with them. -/

theorem execTxResult_requestReset {w : BitVec 2} {s t : State} (h : execTxResult w s = .next t) :
    execTxResult w s.requestReset = .next t.requestReset := by
  obtain ⟨hw, hi, hp, ⟨hk, rfl⟩ | ⟨hk, hok, rfl⟩ | ⟨hk, hbad, rfl⟩⟩ := execTxResult_next.mp h
  · exact execTxResult_next.mpr ⟨hw, hi, hp, .inl ⟨hk, rfl⟩⟩
  · exact execTxResult_next.mpr ⟨hw, hi, hp, .inr (.inl ⟨hk, hok, rfl⟩)⟩
  · exact execTxResult_next.mpr ⟨hw, hi, hp, .inr (.inr ⟨hk, hbad, rfl⟩)⟩

theorem judgeResponse_requestReset {f : List Byte} {s t : State} (h : judgeResponse f s = .next t) :
    judgeResponse f s.requestReset = .next t.requestReset := by
  rcases judgeResponse_next.mp h with ⟨hf, rfl⟩ | ⟨hf, ha, rfl⟩ | ⟨hf, ha, hc, rfl⟩ | ⟨r, hf, ha, hc, hd, rfl⟩ |
    ⟨d, hf, ha, hc, hd, rfl⟩
  · exact judgeResponse_next.mpr (.inl ⟨hf, rfl⟩)
  · exact judgeResponse_next.mpr (.inr (.inl ⟨hf, ha, rfl⟩))
  · exact judgeResponse_next.mpr (.inr (.inr (.inl ⟨hf, ha, hc, rfl⟩)))
  · exact judgeResponse_next.mpr (.inr (.inr (.inr (.inl ⟨r, hf, ha, hc, hd, rfl⟩))))
  · exact judgeResponse_next.mpr (.inr (.inr (.inr (.inr ⟨d, hf, ha, hc, hd, rfl⟩))))

theorem execRxResult_requestReset {rx : ReadResult} {s t : State} (h : execRxResult rx s = .next t) :
    execRxResult rx s.requestReset = .next t.requestReset := by
  obtain ⟨hr, hi, hp, ⟨hrx, rfl⟩ | ⟨f, hrx, hj⟩⟩ := execRxResult_next.mp h
  · exact execRxResult_next.mpr ⟨hr, hi, hp, .inl ⟨hrx, rfl⟩⟩
  · exact execRxResult_next.mpr ⟨hr, hi, hp, .inr ⟨f, hrx, judgeResponse_requestReset hj⟩⟩

/-! ### The next TX_SELECT consumes the request -/

theorem execTxSelect_consumes_request {en : Byte} {m k r : Bit} {s t : State} (hreset : s.resetReq = true)
    (h : execTxSelect en m k r s = .next t) : t.resetReq = false ∧ t.txKind = .reset := by
  obtain ⟨-, -, ⟨-, rfl⟩ | ⟨hno, -, rfl⟩ | ⟨hno, -, rfl⟩⟩ := execTxSelect_next.mp h
  · exact ⟨rfl, rfl⟩
  · simp [hreset] at hno
  · simp [hreset] at hno

/-- Settles O30: REQ_RESET sets RESET_REQ alone and coalesces; write and read results commute with it; the next
TX_SELECT takes its reset path and clears it. -/
theorem reqResetSetsTheFlagOnly : Obligations.ReqResetSetsTheFlagOnly := by
  unfold Obligations.ReqResetSetsTheFlagOnly
  refine ⟨fun s => exec_reqReset_of_initialised, fun s t => exec_reqReset_again, ?_,
    fun en m k r s t => execTxSelect_consumes_request, rfl⟩
  rintro i s t (⟨w, rfl⟩ | ⟨rx, rfl⟩) h
  · exact execTxResult_requestReset h
  · exact execRxResult_requestReset h

end Sys2Proof.Machine
end

section
/-! Proofs about outcomes (60_exceptions.md R184, R194): which operations can report an error, and the response whose
InvalidCommandEvt bit is set, which is an event of an Accepted exchange and no error. -/

namespace Sys2Proof.Machine

open Sys2Proof.Safety

/-! ### Outcomes of the operations that report no error of their own -/

/-- TX_RESULT answers the report of its write result on each of its ends (R153, R184). -/
theorem execTxResult_response {w : BitVec 2} {s t : State} (h : execTxResult w s = .next t) :
    t.response = some (writeResponse w) := by
  obtain ⟨-, -, -, ⟨-, rfl⟩ | ⟨-, -, rfl⟩ | ⟨-, -, rfl⟩⟩ := execTxResult_next.mp h <;> rfl

theorem exec_txResult_outcome {w : BitVec 2} {s t : State} (h : exec (.txResult w) s = .next t) :
    t.response.map outcomeOf = some (outcomeOf (writeResponse w)) := by
  rw [execTxResult_response h, Option.map_some]

/-- TX_SELECT hands out a frame on each of its paths (R152). -/
theorem execTxSelect_outcome {en : Byte} {m k r : Bit} {s t : State} (h : execTxSelect en m k r s = .next t) :
    t.response.map outcomeOf = some .ok := by
  obtain ⟨-, -, ⟨-, rfl⟩ | ⟨-, -, rfl⟩ | ⟨-, -, rfl⟩⟩ := execTxSelect_next.mp h <;> rfl

theorem execReqReset_outcome {s t : State} (h : execReqReset s = .next t) : t.response.map outcomeOf = some .ok := by
  obtain ⟨-, rfl⟩ := execReqReset_next.mp h
  rfl

/-- An operation that answers `r` unless its operand is refused reports the outcome of `r`. -/
theorem outcome_of_unlessRefused_answer {why : Option Refusal} {r : Response} {s t : State}
    (h : unlessRefused why (.next (s.answer r)) = .next t) : t.response.map outcomeOf = some (outcomeOf r) := by
  obtain ⟨-, hnext⟩ := unlessRefused_next.mp h
  cases hnext
  rfl

/-- A pure operation other than DEC_RSP reports OK whenever it completes (R184). -/
theorem exec_pure_outcome {i : Instr} (hi : isPure i = true) (hd : ∀ f, i ≠ .decRsp f) {s t : State}
    (h : exec i s = .next t) : t.response.map outcomeOf = some .ok := by
  cases i
  case init | reqReset | txSelect | txResult | rxResult => cases hi
  case encCmd | encReset =>
    cases h
    rfl
  case ackMatches => exact outcome_of_unlessRefused_answer (unlessRefused_next.mp h).2
  case decRsp f => exact absurd rfl (hd f)
  case checksum | checksumOk | decState | decEvents | decCashbox | decCredit | decDiag =>
    exact outcome_of_unlessRefused_answer h

/-- Settles O43: TX_RESULT reports the write result given; TX_SELECT, REQ_RESET and the pure operations other than
DEC_RSP report OK. -/
theorem onlyResultsReportErrors : Obligations.OnlyResultsReportErrors := by
  unfold Obligations.OnlyResultsReportErrors
  refine ⟨fun _ _ => exec_txResult_outcome, fun _ _ => exec_txResult_outcome, fun _ _ => exec_txResult_outcome, ?_⟩
  rintro i s t h (hpure | ⟨en, m, k, r, rfl⟩ | rfl) hdec
  · exact exec_pure_outcome hpure hdec h
  · exact execTxSelect_outcome h
  · exact execReqReset_outcome h

/-! ### The event vector as a set -/

theorem mem_eventSet {v : DeviceEvent} {e : BitVec 6} : v ∈ eventSet e ↔ e.getLsbD (eventBit v) = true := by
  have hall : v ∈ [DeviceEvent.stacked, .returned, .cheated, .billRejected, .powerUp, .invalidCommandEvt] := by
    cases v <;> decide
  simp only [eventSet, List.mem_filter, hall, true_and]

/-- The event vector built bit by bit, the highest first (R105). -/
theorem deviceEvents_eq_concat (d : DecodedRecord) : deviceEvents d =
    (((((BitVec.ofBool (d.payload.getLsbD 17)).concat (d.payload.getLsbD 16)).concat (d.payload.getLsbD 9)).concat
      (d.payload.getLsbD 8)).concat (d.payload.getLsbD 6)).concat (d.payload.getLsbD 4) := rfl

/-- Each bit of the event vector is the payload bit of its event (R105, R111). -/
theorem deviceEvents_getLsbD (d : DecodedRecord) (v : DeviceEvent) :
    (deviceEvents d).getLsbD (eventBit v) = d.payload.getLsbD (eventPayloadBit v) := by
  rw [deviceEvents_eq_concat]
  cases v <;> simp [eventBit, eventPayloadBit, BitVec.getElem_concat]

/-- Payload bit 17 is bit 1 of STATUS, the payload's high byte (R81). -/
theorem packPayload_bit17 (b3 b4 b5 : Byte) : (packPayload b3 b4 b5).getLsbD 17 = b5.getLsbD 1 := by
  rw [packPayload_eq_append, BitVec.getLsbD_append, if_neg (by decide), BitVec.getLsbD_append, if_neg (by decide)]

/-- The event of a record is in its event set as its payload bit says. -/
theorem mem_eventSet_deviceEvents {v : DeviceEvent} {d : DecodedRecord} :
    v ∈ eventSet (deviceEvents d) ↔ d.payload.getLsbD (eventPayloadBit v) = true := by
  rw [mem_eventSet, deviceEvents_getLsbD]

/-! ### Well-framed responses are Accepted -/

/-- A response that passes the ack comparison, the checksum and the framing tests is Accepted (R154, R183). -/
theorem exec_rxResult_of_decodes {f : List Byte} {d : DecodedRecord} {s : State} (hi : s.initialised = true)
    (hp : s.phase = .rxWait) (hack : ackBitsMatch (frameBytes s.lastTx) f = true)
    (hchk : checksumHolds f .rsp = true) (hd : decodeResponse f = .ok d) :
    exec (.rxResult (.bytes f)) s = .next (acceptedState d s) := by
  have hlen : f.length = 11 := checksumHolds_length hchk
  have hne : f ≠ [] := List.ne_nil_of_length_eq_add_one hlen
  exact execRxResult_next.mpr ⟨seqRefusal_eq_none.mpr (by omega), hi, hp,
    .inr ⟨f, rfl, judgeResponse_next.mpr (.inr (.inr (.inr (.inr ⟨d, hne, hack, hchk, hd, rfl⟩))))⟩⟩

/-- The checksum of eleven bytes runs over bytes 1 to 8 (R130, R131). -/
theorem checksumHolds_eleven (f0 f1 f2 f3 f4 f5 f6 f7 f8 f9 f10 : Byte) :
    checksumHolds [f0, f1, f2, f3, f4, f5, f6, f7, f8, f9, f10] .rsp = true ↔
      f10 = f1 ^^^ f2 ^^^ f3 ^^^ f4 ^^^ f5 ^^^ f6 ^^^ f7 ^^^ f8 := by
  have h : checksumHolds [f0, f1, f2, f3, f4, f5, f6, f7, f8, f9, f10] .rsp =
      ([f1, f2, f3, f4, f5, f6, f7, f8].foldr (· ^^^ ·) 0#8 == f10) :=
    checksumHolds_frame f0 f9 f10 [f1, f2, f3, f4, f5, f6, f7, f8] .rsp
  rw [h, beq_iff_eq, eq_comm]
  simp [BitVec.xor_assoc]

/-- The retained frame and a response agree in the ack bit when bit 0 of their control bytes agrees (R132). -/
theorem ackBitsMatch_of_ctrl {sent : TxFrame} {b0 b1 c : Byte} {rest : List Byte}
    (h : c.getLsbD 0 = sent.ctrl.getLsbD 0) : ackBitsMatch (frameBytes sent) (b0 :: b1 :: c :: rest) = true := by
  have hbit : sent.ctrl &&& 1#8 = c &&& 1#8 := by
    rw [BitVec.and_one_eq_setWidth_ofBool_getLsbD, BitVec.and_one_eq_setWidth_ofBool_getLsbD, h]
  exact (ackBitsMatch_eq _ _).mpr ⟨by simp [frameBytes], by simp, hbit⟩

/-- Settles O44: such a response passes all tests of RX_RESULT, and its event is payload bit 17, STATUS bit 1. -/
theorem invalidCommandEventIsAccepted : Obligations.InvalidCommandEventIsAccepted := by
  unfold Obligations.InvalidCommandEventIsAccepted
  intro c b3 b4 b5 b6 b7 b8 chk s hi hp hack hevt hchk
  have hd := decodeResponse_ok.mpr ⟨c, b3, b4, b5, b6, b7, b8, chk, rfl, rfl⟩
  have haccept := exec_rxResult_of_decodes hi hp (ackBitsMatch_of_ctrl hack) ((checksumHolds_eleven ..).mpr hchk) hd
  refine ⟨_, _, _, _, _, _, _, haccept, rfl, mem_eventSet_deviceEvents.mpr ?_⟩
  exact (packPayload_bit17 b3 b4 b5).trans hevt

end Sys2Proof.Machine
end

section
/-! Proofs about the encoding of requests (30_encoding.md §5): the encoder and the decoder undo each other, operand by
operand and then for whole requests. -/

namespace Sys2Proof

/-! ### Decoding an encoded operation -/

/-- The decoder reads an encoded operation back and leaves the bytes after it. -/
theorem decodePrefix_encode {i : Instr} (h : i.wellFormed = true) (rest : List Byte) :
    decodePrefix (encode i ++ rest) = .ok (i, rest) := by
  cases i
  case init => rfl
  case reqReset => rfl
  case txSelect en mode stack reject => simp [encode, opCode, operandBytes, decodePrefix]
  case txResult wres =>
    have hw : wres ≠ 3#2 := by simpa [Instr.wellFormed] using h
    simp [encode, opCode, operandBytes, decodePrefix, takeWriteResult_code hw]
  case rxResult rx => simp [encode, opCode, operandBytes, decodePrefix, takeRead_readBytes h]
  case encCmd ctrl en esc => simp [encode, opCode, operandBytes, decodePrefix]
  case encReset ack => simp [encode, opCode, operandBytes, decodePrefix]
  case checksum f => simp [encode, opCode, operandBytes, decodePrefix, takeSeq_seqBytes h]
  case checksumOk f kind => simp [encode, opCode, operandBytes, decodePrefix, takeSeq_seqBytes h]
  case ackMatches sent received =>
    obtain ⟨hs, hr⟩ : seqFits sent = true ∧ seqFits received = true := by simpa [Instr.wellFormed] using h
    simp [encode, opCode, operandBytes, decodePrefix, takeSeq_seqBytes hs, takeSeq_seqBytes hr]
  case decRsp f => simp [encode, opCode, operandBytes, decodePrefix, takeSeq_seqBytes h]
  case decState | decEvents | decCashbox | decCredit | decDiag =>
    simp [encode, opCode, operandBytes, decodePrefix, takeRecord_recordBytes h]

/-- A request decodes to the operation that begins it and has nothing after it. -/
theorem decode_eq_ok {bs : List Byte} {i : Instr} : decode bs = .ok i ↔ decodePrefix bs = .ok (i, []) := by
  unfold decode
  rcases decodePrefix bs with e | ⟨j, _ | ⟨b, rest⟩⟩ <;> simp

/-- Settles O1: the decoder reads every operand of the encoded operation back, and no byte is left over. -/
theorem decodeOfEncode : Obligations.DecodeOfEncode := by
  unfold Obligations.DecodeOfEncode
  intro i h
  simpa using decode_eq_ok.mpr (by simpa using decodePrefix_encode h [])

/-! ### What each operand reader accepts -/

theorem takeByte_eq_ok {bs : List Byte} {b : Byte} {rest : List Byte} :
    takeByte bs = .ok (b, rest) ↔ bs = b :: rest := by
  cases bs <;> simp [takeByte]

theorem takeBit_eq_ok {bs : List Byte} {b : Bit} {rest : List Byte} :
    takeBit bs = .ok (b, rest) ↔ bs = bitByte b :: rest := by
  refine ⟨fun h => ?_, by rintro rfl; exact takeBit_bitByte b rest⟩
  have hbyte : ∀ x : Byte, x.toNat < 2 → bitByte (x.setWidth 1) = x := by decide
  cases bs with
  | nil => cases h
  | cons x xs =>
    rw [takeBit] at h
    split at h
    · rename_i hx
      cases h
      rw [hbyte x hx]
    · cases h

theorem takeKind_eq_ok {bs : List Byte} {k : FrameKind} {rest : List Byte} :
    takeKind bs = .ok (k, rest) ↔ bs = kindByte k :: rest := by
  refine ⟨fun h => ?_, by rintro rfl; exact takeKind_kindByte k rest⟩
  cases bs with
  | nil => cases h
  | cons x xs =>
    rw [takeKind] at h
    split at h
    · subst x; cases h; rfl
    · split at h
      · subst x; cases h; rfl
      · cases h

theorem takeWriteResult_eq_ok {bs : List Byte} {w : BitVec 2} {rest : List Byte} :
    takeWriteResult bs = .ok (w, rest) ↔ w ≠ 3#2 ∧ bs = w.setWidth 8 :: rest := by
  refine ⟨fun h => ?_, by rintro ⟨hw, rfl⟩; exact takeWriteResult_code hw rest⟩
  have hcode : ∀ x : Byte, x.toNat < 3 → x.setWidth 2 ≠ 3#2 ∧ (x.setWidth 2).setWidth 8 = x := by decide
  cases bs with
  | nil => cases h
  | cons x xs =>
    rw [takeWriteResult] at h
    split at h
    · rename_i hx
      cases h
      obtain ⟨hne, hback⟩ := hcode x hx
      exact ⟨hne, by rw [hback]⟩
    · cases h

theorem takeSeq_eq_ok {bs f rest : List Byte} :
    takeSeq bs = .ok (f, rest) ↔ seqFits f = true ∧ bs = seqBytes f ++ rest := by
  refine ⟨fun h => ?_, by rintro ⟨hf, rfl⟩; exact takeSeq_seqBytes hf rest⟩
  cases bs with
  | nil => cases h
  | cons n xs =>
    rw [takeSeq, Config.nMax] at h
    split at h
    · cases h
    · split at h
      · cases h
      · cases h
        have hlen : (xs.take n.toNat).length = n.toNat := by simp; omega
        refine ⟨seqFits_iff.mpr (by omega), ?_⟩
        simp [seqBytes, hlen]

theorem takeRead_eq_ok {bs : List Byte} {rx : ReadResult} {rest : List Byte} :
    takeRead bs = .ok (rx, rest) ↔ readFits rx = true ∧ bs = readBytes rx ++ rest := by
  refine ⟨fun h => ?_, by rintro ⟨hf, rfl⟩; exact takeRead_readBytes hf rest⟩
  cases bs with
  | nil => cases h
  | cons b xs =>
    rw [takeRead] at h
    split at h
    · subst b; cases h; exact ⟨rfl, rfl⟩
    · obtain ⟨f, rest', hseq, hok⟩ := andThen_eq_ok.mp h
      cases hok
      exact takeSeq_eq_ok.mp hseq

/-- The bytes of three bytes packed to a payload are those bytes (R81). -/
theorem packPayload_extract (b3 b4 b5 : Byte) :
    (packPayload b3 b4 b5).extractLsb' 0 8 = b3 ∧ (packPayload b3 b4 b5).extractLsb' 8 8 = b4 ∧
    (packPayload b3 b4 b5).extractLsb' 16 8 = b5 := by
  rw [packPayload_eq_append]
  refine ⟨?_, ?_, ?_⟩
  · rw [BitVec.extractLsb'_append_eq_of_add_le (by decide), BitVec.extractLsb'_eq_self]
  · rw [BitVec.extractLsb'_append_eq_of_le (by decide), BitVec.extractLsb'_append_eq_of_add_le (by decide),
      BitVec.extractLsb'_eq_self]
  · rw [BitVec.extractLsb'_append_eq_of_le (by decide), BitVec.extractLsb'_append_eq_of_le (by decide),
      BitVec.extractLsb'_eq_self]

theorem takeRecord_eq_ok {bs : List Byte} {d : DecodedRecord} {rest : List Byte} :
    takeRecord bs = .ok (d, rest) ↔ d.consistent = true ∧ bs = recordBytes d ++ rest := by
  refine ⟨fun h => ?_, by rintro ⟨hd, rfl⟩; exact takeRecord_recordBytes hd rest⟩
  have hbit : ∀ c : Byte, bitByte ((c &&& 1#8).setWidth 1) = c &&& 1#8 := by decide
  unfold takeRecord at h
  split at h
  · rename_i ctrl ack b3 b4 b5 rsv6 aux7 aux8 chk rest'
    split at h
    · rename_i hack
      subst hack
      cases h
      obtain ⟨h3, h4, h5⟩ := packPayload_extract b3 b4 b5
      refine ⟨by simp [DecodedRecord.consistent], ?_⟩
      simp only [recordBytes, h3, h4, h5, hbit, List.cons_append, List.nil_append]
    · cases h
  · cases h

/-! ### What decodes has one spelling -/

/-- A first byte with the operation's OP code, and its operands' bytes after it, are its encoding (R80). -/
theorem cons_eq_encode {op : Byte} {operands rest : List Byte} {i : Instr} (hop : op.toNat = (opCode i).toNat)
    (hbytes : operands = operandBytes i ++ rest) : op :: operands = encode i ++ rest := by
  have hbyte : op = (opCode i).setWidth 8 := BitVec.eq_of_toNat_eq (by rw [hop]; simp; omega)
  rw [encode, List.cons_append, hbyte, hbytes]

/-- The operation that begins a byte string is well formed, and its encoding is the bytes it was read from. -/
theorem decodePrefix_eq_ok {bs : List Byte} {i : Instr} {rest : List Byte} (h : decodePrefix bs = .ok (i, rest)) :
    i.wellFormed = true ∧ bs = encode i ++ rest := by
  cases bs with
  | nil => cases h
  | cons op operands =>
    rw [decodePrefix] at h
    split at h <;> rename_i hop <;>
      simp only [andThen_eq_ok, takeByte_eq_ok, takeBit_eq_ok, takeKind_eq_ok, takeWriteResult_eq_ok, takeSeq_eq_ok,
        takeRead_eq_ok, takeRecord_eq_ok, Except.ok.injEq, Prod.mk.injEq, reduceCtorEq] at h
    case h_1 | h_2 =>
      obtain ⟨rfl, rfl⟩ := h
      exact ⟨rfl, cons_eq_encode hop rfl⟩
    case h_3 =>
      obtain ⟨en, -, rfl, mode, -, rfl, stack, -, rfl, reject, -, rfl, rfl, rfl⟩ := h
      exact ⟨rfl, cons_eq_encode hop rfl⟩
    case h_4 =>
      obtain ⟨wres, -, ⟨hw, rfl⟩, rfl, rfl⟩ := h
      exact ⟨by simpa [Instr.wellFormed] using hw, cons_eq_encode hop rfl⟩
    case h_6 =>
      obtain ⟨ctrl, -, rfl, en, -, rfl, esc, -, rfl, rfl, rfl⟩ := h
      exact ⟨rfl, cons_eq_encode hop rfl⟩
    case h_7 =>
      obtain ⟨ack, -, rfl, rfl, rfl⟩ := h
      exact ⟨rfl, cons_eq_encode hop rfl⟩
    case h_9 =>
      obtain ⟨f, -, ⟨hf, rfl⟩, kind, -, rfl, rfl, rfl⟩ := h
      exact ⟨hf, cons_eq_encode hop (by simp [operandBytes])⟩
    case h_10 =>
      obtain ⟨sent, -, ⟨hs, rfl⟩, received, -, ⟨hr, rfl⟩, rfl, rfl⟩ := h
      exact ⟨by simp [Instr.wellFormed, hs, hr], cons_eq_encode hop (by simp [operandBytes])⟩
    case h_5 | h_8 | h_11 | h_12 | h_13 | h_14 | h_15 | h_16 =>
      obtain ⟨operand, -, ⟨hfits, rfl⟩, rfl, rfl⟩ := h
      exact ⟨hfits, cons_eq_encode hop rfl⟩

/-- Settles O2: every operand reader accepts only what its writer writes, and the whole request is used up. -/
theorem encodeOfDecode : Obligations.EncodeOfDecode := by
  unfold Obligations.EncodeOfDecode
  intro bs i h
  obtain ⟨hwf, hbytes⟩ := decodePrefix_eq_ok (decode_eq_ok.mp h)
  exact ⟨hwf, by simpa using hbytes.symm⟩

end Sys2Proof
end

section
/-! Proofs about the request port (30_encoding.md §5, 60_exceptions.md §3): which requests decode, which are refused,
and what one step does with the next request. -/

namespace Sys2Proof.Machine

open Sys2Proof.Safety

/-! ### Requests that decode, and requests that do not -/

/-- Settles O3: the decoder evaluated on each of the words. -/
theorem specWordsDecode : Obligations.SpecWordsDecode := by
  unfold Obligations.SpecWordsDecode
  decide

theorem decode_of_error {bs : List Byte} {e : DecodeError} (h : decodePrefix bs = .error e) : decode bs = .error e := by
  rw [decode, h]

/-- A first byte that is none of the sixteen OP codes (R76). -/
theorem decode_reservedOp {op : Byte} {rest : List Byte}
    (h : op.toNat ∉ [0, 1, 2, 3, 4, 8, 9, 10, 11, 12, 16, 17, 18, 19, 20, 21]) :
    decode (op :: rest) = .error (.reservedOp op) := by
  apply decode_of_error
  rw [decodePrefix]
  split
  case h_17 => rfl
  all_goals
    rename_i hop
    exact absurd (by rw [hop]; decide) h

theorem decode_txResult_reserved {b : Byte} {rest : List Byte} (h : 3 ≤ b.toNat) :
    decode (0x03#8 :: b :: rest) = .error (.reservedWriteResult b) := by
  have htake : takeWriteResult (b :: rest) = .error (.reservedWriteResult b) := if_neg (by omega)
  exact decode_of_error (by simp [decodePrefix, htake, andThen])

theorem decode_encReset_notOneBit {b : Byte} {rest : List Byte} (h : 2 ≤ b.toNat) :
    decode (0x09#8 :: b :: rest) = .error (.notOneBit b) := by
  have htake : takeBit (b :: rest) = .error (.notOneBit b) := if_neg (by omega)
  exact decode_of_error (by simp [decodePrefix, htake, andThen])

/-! ### One step -/

theorem step_of_undecodable {s : State} {bs : List Byte} {rest : List (List Byte)} {e : DecodeError}
    (hr : s.requests = bs :: rest) (hd : decode bs = .error e) :
    step s = .next ((s.leaveRequests rest).refuse (.undecodable e)) := by
  simp only [step, hr, runRequest, hd]

theorem step_of_decodes {s : State} {bs : List Byte} {rest : List (List Byte)} {i : Instr}
    (hr : s.requests = bs :: rest) (hd : decode bs = .ok i) :
    step s = settle (s.leaveRequests rest) (exec i (s.leaveRequests rest)) := by
  simp only [step, hr, runRequest, hd]

theorem step_of_empty {s : State} (hr : s.requests = []) : step s = .next s := by
  simp only [step, hr]

/-- Settles O4: each malformed request has its decoding error, and a step on one records the refusal. -/
theorem malformedRequestsAreRefused : Obligations.MalformedRequestsAreRefused := by
  unfold Obligations.MalformedRequestsAreRefused
  exact ⟨fun _ _ => decode_reservedOp, fun _ _ => decode_txResult_reserved, fun _ _ => decode_encReset_notOneBit,
    fun _ => rfl, fun _ _ _ _ => step_of_undecodable⟩

/-- Settles O5: a step is the operation's own answer, or its refusal recorded. -/
theorem stepPerformsTheDecodedOperation : Obligations.StepPerformsTheDecodedOperation := by
  unfold Obligations.StepPerformsTheDecodedOperation
  refine ⟨fun s bs rest i hr hd => ⟨fun t ht => ?_, fun r hrefused => ?_⟩, fun s => step_of_empty⟩
  · exact (step_of_decodes hr hd).trans (congrArg (settle _) ht)
  · exact (step_of_decodes hr hd).trans (congrArg (settle _) hrefused)

/-- Running an operation always leaves the run a state to go on from: there is no fault (R12, R212). -/
theorem settle_next (s : State) (o : StepResult) : ∃ t, settle s o = .next t := by
  cases o with
  | next t => exact ⟨t, rfl⟩
  | fault r => cases r
  | refused r => exact ⟨_, rfl⟩

theorem step_next (s : State) : ∃ t, step s = .next t := by
  cases hr : s.requests with
  | nil => exact ⟨s, step_of_empty hr⟩
  | cons bs rest =>
    cases hd : decode bs with
    | error e => exact ⟨_, step_of_undecodable hr hd⟩
    | ok i => exact step_of_decodes hr hd ▸ settle_next _ _

/-- Settles O6: a step takes the first request; only a refusal adds to the recorded ones. -/
theorem everyStepGoesOn : Obligations.EveryStepGoesOn := by
  unfold Obligations.EveryStepGoesOn
  intro s
  obtain ⟨t, h⟩ := step_next s
  refine ⟨t, h, ?_⟩
  obtain ⟨hr, rfl⟩ | ⟨bs, rest, hr, ⟨e, -, rfl⟩ | ⟨i, -, hexec⟩ | ⟨i, r, -, -, rfl⟩⟩ := step_cases h
  · exact ⟨by rw [hr, List.tail_nil], .inl rfl⟩
  · exact ⟨by simp [hr], .inr ⟨_, rfl⟩⟩
  · obtain ⟨hreq, href⟩ := exec_keeps_ports hexec
    exact ⟨by simp [hreq, hr], .inl href⟩
  · exact ⟨by simp [hr], .inr ⟨_, rfl⟩⟩

/-- Settles O7: a step that adds a refusal is one that only takes the request and records it. -/
theorem refusedRequestChangesNoRegister : Obligations.RefusedRequestChangesNoRegister := by
  unfold Obligations.RefusedRequestChangesNoRegister
  intro s t h hrefused
  obtain ⟨-, rfl⟩ | ⟨bs, rest, -, ⟨e, -, rfl⟩ | ⟨i, -, hexec⟩ | ⟨i, r, -, -, rfl⟩⟩ := step_cases h
  · exact absurd rfl hrefused
  · exact ⟨rfl, rfl, rfl, rfl, rfl⟩
  · exact absurd (exec_keeps_ports hexec).2 hrefused
  · exact ⟨rfl, rfl, rfl, rfl, rfl⟩

end Sys2Proof.Machine
end

section
/-! What every operation can do, said once for all sixteen: the test that refuses it (`refusalOf`), and, where none
does, what it makes of the state (`Effect`). The proofs about operations in general go through these two. -/

namespace Sys2Proof.Machine

open Sys2Proof.Safety

/-! ### When an operation is refused -/

/-- The refusal of an operation at a state, its tests in the order of log entry 10: operands, first INIT, PHASE. -/
def refusalOf : Instr → State → Option Refusal
  | .init, _ => none
  | .reqReset, s => initRefusal s
  | .txSelect _ _ _ _, s => (initRefusal s).or (phaseRefusal .idle s)
  | .txResult wres, s => (writeResultRefusal wres).or ((initRefusal s).or (phaseRefusal .txWait s))
  | .rxResult rx, s => (readRefusal rx).or ((initRefusal s).or (phaseRefusal .rxWait s))
  | .encCmd _ _ _, _ => none
  | .encReset _, _ => none
  | .checksum f, _ => seqRefusal f
  | .checksumOk f _, _ => seqRefusal f
  | .ackMatches sent received, _ => (seqRefusal sent).or (seqRefusal received)
  | .decRsp f, _ => seqRefusal f
  | .decState d, s => recordRefusal d s
  | .decEvents d, s => recordRefusal d s
  | .decCashbox d, s => recordRefusal d s
  | .decCredit d, s => recordRefusal d s
  | .decDiag d, s => recordRefusal d s

/-- Two tests one after the other are one test. -/
theorem unlessRefused_or (r r' : Option Refusal) (k : StepResult) :
    unlessRefused r (unlessRefused r' k) = unlessRefused (r.or r') k := by
  cases r <;> rfl

/-! ### The pure operations -/

/-- What a pure operation answers: a function of its operands alone (41_codec.md R109, 42_validator.md R133). No lemma
asks for the answer of an operation that is not pure. -/
def pureAnswer : Instr → Response
  | .encCmd ctrl en esc => .frame (commandFrame ctrl en esc)
  | .encReset ack => .frame (resetFrame ack)
  | .checksum f => .byte (checksumOf f)
  | .checksumOk f kind => .bool (checksumHolds f kind)
  | .ackMatches sent received => .bool (ackBitsMatch sent received)
  | .decRsp f => match decodeResponse f with
    | .error r => .invalidCommand r
    | .ok d => .record d
  | .decState d => .state (deviceState d)
  | .decEvents d => .events (deviceEvents d)
  | .decCashbox d => .bool (cashboxPresent d)
  | .decCredit d => .credit (creditIndex d)
  | .decDiag d => .diag (diagnostics d)
  | _ => .ok

/-- The records of the run after a pure operation: DEC_RSP returns the one it decodes (R102). -/
def recordsAfter : Instr → List DecodedRecord → List DecodedRecord
  | .decRsp f, ds => match decodeResponse f with
    | .error _ => ds
    | .ok d => noteRecord d ds
  | _, ds => ds

/-- The state a pure operation leaves. -/
def afterPure (i : Instr) (s : State) : State :=
  { s with produced := recordsAfter i s.produced, response := some (pureAnswer i) }

/-- A pure operation that is not refused gives its answer and notes the record it returns; that is all it does. -/
theorem exec_pure {i : Instr} (hi : isPure i = true) (s : State) :
    exec i s = unlessRefused (refusalOf i s) (.next (afterPure i s)) := by
  cases i
  case init | reqReset | txSelect | txResult | rxResult => cases hi
  case ackMatches => exact unlessRefused_or ..
  case decRsp f =>
    simp only [exec, execDecRsp, refusalOf, afterPure, recordsAfter, pureAnswer]
    cases decodeResponse f <;> rfl
  all_goals rfl

theorem exec_pure_of_allowed {i : Instr} (hi : isPure i = true) {s : State} (h : refusalOf i s = none) :
    exec i s = .next (afterPure i s) := by
  rw [exec_pure hi, h, unlessRefused_none]

theorem exec_pure_next_iff {i : Instr} (hi : isPure i = true) {s t : State} :
    exec i s = .next t ↔ refusalOf i s = none ∧ afterPure i s = t := by
  simp [exec_pure hi, unlessRefused_next]

theorem recordsAfter_cases (i : Instr) (ds : List DecodedRecord) :
    recordsAfter i ds = ds ∨ ∃ f d, i = .decRsp f ∧ decodeResponse f = .ok d ∧ recordsAfter i ds = noteRecord d ds := by
  cases i
  case decRsp f =>
    cases hd : decodeResponse f with
    | error r => exact .inl (by simp [recordsAfter, hd])
    | ok d => exact .inr ⟨f, d, rfl, hd, by simp [recordsAfter, hd]⟩
  all_goals exact .inl rfl

/-- A pure operation answers OK, or is a DEC_RSP on a badly framed response (R180, R184). -/
theorem pureAnswer_cases {i : Instr} (hi : isPure i = true) :
    outcomeOf (pureAnswer i) = .ok ∨ ∃ f r, i = .decRsp f ∧ pureAnswer i = .invalidCommand r := by
  cases i
  case init | reqReset | txSelect | txResult | rxResult => cases hi
  case decRsp f =>
    cases hd : decodeResponse f with
    | error r => exact .inr ⟨f, r, rfl, by simp [pureAnswer, hd]⟩
    | ok d => exact .inl (by simp [pureAnswer, hd, outcomeOf])
  all_goals exact .inl rfl

theorem ne_init_of_isPure {i : Instr} (hi : isPure i = true) : i ≠ .init := by
  rintro rfl
  cases hi

theorem pureAnswer_ne_tx {i : Instr} (hi : isPure i = true) (f : TxFrame) (kind : TxKind) :
    pureAnswer i ≠ .tx f kind := by
  cases i
  case init | reqReset | txSelect | txResult | rxResult => cases hi
  case decRsp g => rw [pureAnswer]; cases decodeResponse g <;> simp
  all_goals simp [pureAnswer]

/-! ### Completed or refused -/

theorem judgeResponse_completes (f : List Byte) (s : State) : ∃ t, judgeResponse f s = .next t := by
  unfold judgeResponse failExchange acceptExchange
  split
  · exact ⟨_, rfl⟩
  split
  · exact ⟨_, rfl⟩
  split
  · exact ⟨_, rfl⟩
  split <;> exact ⟨_, rfl⟩

/-- An operation is refused for the first test that fails, and completes when none does. -/
theorem exec_eq_unlessRefused (i : Instr) (s : State) : ∃ t, exec i s = unlessRefused (refusalOf i s) (.next t) := by
  cases i
  case init => exact ⟨_, rfl⟩
  case reqReset => exact ⟨_, rfl⟩
  case txSelect en mode stack reject =>
    simp only [exec, execTxSelect, refusalOf, unlessRefused_or]
    cases s.resetReq <;> cases s.rtxPending <;> exact ⟨_, rfl⟩
  case txResult wres =>
    simp only [exec, execTxResult, refusalOf, unlessRefused_or, failExchange]
    split
    · exact ⟨_, rfl⟩
    · split <;> exact ⟨_, rfl⟩
  case rxResult rx =>
    simp only [exec, execRxResult, refusalOf, unlessRefused_or]
    cases rx with
    | timeout => exact ⟨_, rfl⟩
    | bytes f =>
      obtain ⟨t, ht⟩ := judgeResponse_completes f s
      exact ⟨t, congrArg (unlessRefused _) ht⟩
  all_goals exact ⟨_, exec_pure rfl s⟩

theorem exec_completes_iff {i : Instr} {s : State} : (∃ t, exec i s = .next t) ↔ refusalOf i s = none := by
  obtain ⟨t, ht⟩ := exec_eq_unlessRefused i s
  simp [ht, unlessRefused_next]

theorem exec_of_refusal {i : Instr} {s : State} {r : Refusal} (h : refusalOf i s = some r) : exec i s = .refused r := by
  obtain ⟨t, ht⟩ := exec_eq_unlessRefused i s
  rw [ht, h, unlessRefused_some]

theorem refusalOf_of_refused {i : Instr} {s : State} {r : Refusal} (h : exec i s = .refused r) :
    refusalOf i s = some r := by
  obtain ⟨t, ht⟩ := exec_eq_unlessRefused i s
  rw [ht] at h
  cases hr : refusalOf i s <;> simp_all

/-! ### What a completed operation does -/

/-- The responses of a failed read (60_exceptions.md R183). -/
def IsReadFailure (r : Response) : Prop :=
  r = .timeout ∨ r = .ackMismatch ∨ r = .checksumError ∨ ∃ e, r = .invalidCommand e

/-- The ways an operation can complete, each with what it tested and the state it leaves. -/
inductive Effect : Instr → State → State → Prop
  /-- INIT (R150). -/
  | init (s : State) : Effect .init s (s.initialise.answer .ok)
  /-- REQ_RESET (R151). -/
  | reqReset (s : State) : Effect .reqReset s (s.requestReset.answer .ok)
  /-- TX_SELECT, the reset path (R152). -/
  | sendReset {en : Byte} {m k r : Bit} {s : State} (hphase : s.phase = .idle) (hreset : s.resetReq = true) :
      Effect (.txSelect en m k r) s (s.startReset.answer (.tx (resetFrame s.ack) .reset))
  /-- TX_SELECT, the replay path (R152). -/
  | sendReplay {en : Byte} {m k r : Bit} {s : State} (hphase : s.phase = .idle) (hreset : s.resetReq = false)
      (hrtx : s.rtxPending = true) : Effect (.txSelect en m k r) s (s.startReplay.answer (.tx s.lastTx .replay))
  /-- TX_SELECT, the fresh path (R152). -/
  | sendFresh {en : Byte} {m k r : Bit} {s : State} (hphase : s.phase = .idle) (hreset : s.resetReq = false)
      (hrtx : s.rtxPending = false) : Effect (.txSelect en m k r) s
        ((s.startFresh (freshFrame s.ack en m k r)).answer (.tx (freshFrame s.ack en m k r) .fresh))
  /-- TX_RESULT ends a reset tick (R153). -/
  | resetSent {w : BitVec 2} {s : State} (hw : w ≠ 3#2) (hphase : s.phase = .txWait) (hkind : s.txKind = .reset) :
      Effect (.txResult w) s (s.endTick.answer (writeResponse w))
  /-- TX_RESULT after a good write (R153). -/
  | written {s : State} (hphase : s.phase = .txWait) (hkind : s.txKind ≠ .reset) :
      Effect (.txResult 0#2) s (s.awaitResponse.answer .ok)
  /-- TX_RESULT after a failed write (R153, R185). -/
  | writeFailed {w : BitVec 2} {s : State} (hw : w ≠ 3#2) (hbad : w ≠ 0#2) (hphase : s.phase = .txWait)
      (hkind : s.txKind ≠ .reset) : Effect (.txResult w) s (s.retain.answer (writeResponse w))
  /-- RX_RESULT after a failed read (R154, R185). -/
  | readFailed {rx : ReadResult} {s : State} {r : Response} (hr : IsReadFailure r) (hphase : s.phase = .rxWait) :
      Effect (.rxResult rx) s (s.retain.answer r)
  /-- RX_RESULT on a response it accepts (R154, R186). -/
  | accepted {f : List Byte} {d : DecodedRecord} {s : State} (hsum : checksumHolds f .rsp = true)
      (hd : decodeResponse f = .ok d) (hphase : s.phase = .rxWait)
      (hack : ackBitsMatch (frameBytes s.lastTx) f = true) : Effect (.rxResult (.bytes f)) s (acceptedState d s)
  /-- A pure operation (R109, R133). -/
  | pure {i : Instr} {s : State} (hi : isPure i = true) : Effect i s (afterPure i s)

/-- Whatever completes has one of these effects. -/
theorem exec_effect {i : Instr} {s t : State} (h : exec i s = .next t) : Effect i s t := by
  cases i
  case init => cases h; exact .init s
  case reqReset => obtain ⟨-, rfl⟩ := execReqReset_next.mp h; exact .reqReset s
  case txSelect =>
    obtain ⟨-, hp, ⟨hr, rfl⟩ | ⟨hr, hx, rfl⟩ | ⟨hr, hx, rfl⟩⟩ := execTxSelect_next.mp h
    · exact .sendReset hp hr
    · exact .sendReplay hp hr hx
    · exact .sendFresh hp hr hx
  case txResult =>
    obtain ⟨hw, -, hp, ⟨hk, rfl⟩ | ⟨hk, rfl, rfl⟩ | ⟨hk, hbad, rfl⟩⟩ := execTxResult_next.mp h
    · exact .resetSent hw hp hk
    · exact .written hp hk
    · exact .writeFailed hw hbad hp hk
  case rxResult =>
    obtain ⟨-, hp, ⟨r, rfl, hr⟩ | ⟨f, d, rfl, ha, hc, hd, rfl⟩⟩ := execRxResult_ends h
    · exact .readFailed hr hp
    · exact .accepted hc hd hp ha
  all_goals
    obtain ⟨-, rfl⟩ := (exec_pure_next_iff rfl).mp h
    exact .pure rfl

/-! ### The fields of the states that `Effect` names -/

section fields
variable (i : Instr) (d : DecodedRecord) (s : State)
@[simp] theorem afterPure_ack : (afterPure i s).ack = s.ack := rfl
@[simp] theorem afterPure_rtxPending : (afterPure i s).rtxPending = s.rtxPending := rfl
@[simp] theorem afterPure_lastTx : (afterPure i s).lastTx = s.lastTx := rfl
@[simp] theorem afterPure_resetReq : (afterPure i s).resetReq = s.resetReq := rfl
@[simp] theorem afterPure_phase : (afterPure i s).phase = s.phase := rfl
@[simp] theorem afterPure_txKind : (afterPure i s).txKind = s.txKind := rfl
@[simp] theorem afterPure_lastState : (afterPure i s).lastState = s.lastState := rfl
@[simp] theorem afterPure_initialised : (afterPure i s).initialised = s.initialised := rfl
@[simp] theorem afterPure_response : (afterPure i s).response = some (pureAnswer i) := rfl
@[simp] theorem afterPure_produced : (afterPure i s).produced = recordsAfter i s.produced := rfl
@[simp] theorem acceptedState_rtxPending : (acceptedState d s).rtxPending = false := rfl
@[simp] theorem acceptedState_lastTx : (acceptedState d s).lastTx = s.lastTx := rfl
@[simp] theorem acceptedState_resetReq : (acceptedState d s).resetReq = s.resetReq := rfl
@[simp] theorem acceptedState_phase : (acceptedState d s).phase = .idle := rfl
@[simp] theorem acceptedState_txKind : (acceptedState d s).txKind = s.txKind := rfl
@[simp] theorem acceptedState_lastState : (acceptedState d s).lastState = deviceState d := rfl
@[simp] theorem acceptedState_initialised : (acceptedState d s).initialised = s.initialised := rfl
@[simp] theorem acceptedState_response : (acceptedState d s).response = some (.accepted d (deviceState d)
    (deviceEvents d) (cashboxPresent d) (creditIndex d) (diagnostics d)) := rfl
@[simp] theorem acceptedState_produced : (acceptedState d s).produced = noteRecord d s.produced := rfl
end fields

/-! ### Outcomes -/

theorem IsReadFailure.outcome {r : Response} (h : IsReadFailure r) :
    outcomeOf r = .timeout ∨ outcomeOf r = .ackMismatch ∨ outcomeOf r = .checksumError ∨
      outcomeOf r = .invalidCommand := by
  rcases h with rfl | rfl | rfl | ⟨e, rfl⟩ <;> simp [outcomeOf]

theorem IsReadFailure.not_accepted {r : Response} (h : IsReadFailure r) : outcomeOf r ≠ .accepted := by
  rcases h.outcome with e | e | e | e <;> simp [e]

theorem IsReadFailure.ne_tx {r : Response} (h : IsReadFailure r) (f : TxFrame) (kind : TxKind) : r ≠ .tx f kind := by
  rcases h with rfl | rfl | rfl | ⟨e, rfl⟩ <;> simp

/-- A write result other than the reserved one, and the outcome that reports it (R153, R184). -/
theorem writeResponse_cases {w : BitVec 2} (h : w ≠ 3#2) :
    (w = 0#2 ∧ writeResponse w = .ok) ∨ (w = 1#2 ∧ writeResponse w = .writeError) ∨
      (w = 2#2 ∧ writeResponse w = .portError) := by
  revert w; decide

theorem writeResponse_ne_tx (w : BitVec 2) (f : TxFrame) (kind : TxKind) : writeResponse w ≠ .tx f kind := by
  unfold writeResponse
  split
  · simp
  · split <;> simp

end Sys2Proof.Machine
end

section
/-! Proofs about when operations complete and why they are refused (30_encoding.md §5, 60_exceptions.md §3,
70_reset_and_hazards.md §1). -/

namespace Sys2Proof.Machine

/-! ### The refusal tests, when they fail -/

theorem seqRefusal_of_long {f : List Byte} (h : 254 < f.length) : seqRefusal f = some .sequenceTooLong := by
  rw [seqRefusal, if_neg (by rw [seqFits_iff]; omega)]

/-- A byte sequence is refused for one reason only. -/
theorem seqRefusal_or_tooLong (f : List Byte) :
    (seqRefusal f).or (some .sequenceTooLong) = some .sequenceTooLong := by
  unfold seqRefusal
  split <;> rfl

theorem readRefusal_eq_none {rx : ReadResult} : readRefusal rx = none ↔ readFits rx = true := by
  cases rx with
  | timeout => simp [readRefusal, readFits]
  | bytes f => rw [readRefusal, seqRefusal_eq_none, readFits, seqFits_iff]

theorem recordRefusal_of_notMem {d : DecodedRecord} {s : State} (h : d ∉ s.produced) :
    recordRefusal d s = some .recordNotProduced := if_neg h

theorem initRefusal_of_uninitialised {s : State} (h : s.initialised = false) : initRefusal s = some .beforeInit :=
  if_neg (by simp [h])

theorem phaseRefusal_of_ne {p : Phase} {s : State} (h : s.phase ≠ p) : phaseRefusal p s = some .outOfPhase := if_neg h

/-! ### The obligations -/

/-- Settles O8: an operation completes exactly when every one of its tests passes. -/
theorem operationsCompleteExactlyWhenAllowed : Obligations.OperationsCompleteExactlyWhenAllowed := by
  unfold Obligations.OperationsCompleteExactlyWhenAllowed
  simp only [exec_completes_iff, refusalOf, Option.or_eq_none_iff, readRefusal, initRefusal_eq_none,
    phaseRefusal_eq_none, writeResultRefusal_eq_none, seqRefusal_eq_none, recordRefusal_eq_none]
  simp

/-- Settles O9: the tests stand in `refusalOf` in their order, operands first. -/
theorem refusalsNameTheFirstReason : Obligations.RefusalsNameTheFirstReason := by
  unfold Obligations.RefusalsNameTheFirstReason
  refine ⟨fun s => rfl, fun f s h => ?_, fun d s h => ?_, fun en m k r w rx s hi hw hrx => ?_⟩
  · have hlong := seqRefusal_of_long h
    exact ⟨exec_of_refusal (by simp [refusalOf, readRefusal, hlong]), exec_of_refusal hlong,
      fun k => exec_of_refusal hlong, fun g => exec_of_refusal (by simp [refusalOf, hlong]),
      fun g => exec_of_refusal (by rw [refusalOf, hlong, seqRefusal_or_tooLong]), exec_of_refusal hlong⟩
  · have hnot := recordRefusal_of_notMem h
    exact ⟨exec_of_refusal hnot, exec_of_refusal hnot, exec_of_refusal hnot, exec_of_refusal hnot, exec_of_refusal hnot⟩
  · have hinit := initRefusal_eq_none.mpr hi
    have hwrite := writeResultRefusal_eq_none.mpr hw
    have hread := readRefusal_eq_none.mpr hrx
    exact ⟨fun hp => exec_of_refusal (by simp [refusalOf, hinit, phaseRefusal_of_ne hp]),
      fun hp => exec_of_refusal (by simp [refusalOf, hwrite, hinit, phaseRefusal_of_ne hp]),
      fun hp => exec_of_refusal (by simp [refusalOf, hread, hinit, phaseRefusal_of_ne hp])⟩

/-- Only INIT initialises, and nothing undoes it (R200). -/
theorem exec_initialised {i : Instr} {s t : State} (h : exec i s = .next t) :
    t.initialised = true ↔ s.initialised = true ∨ i = .init := by
  cases exec_effect h
  case pure hi => simp [ne_init_of_isPure hi]
  all_goals simp

/-- Settles O10: before INIT the test of R200 refuses, after the operands' own test; and INIT alone initialises. -/
theorem sequencerWaitsForInit : Obligations.SequencerWaitsForInit := by
  unfold Obligations.SequencerWaitsForInit
  refine ⟨fun en m k r w rx s hi hw hrx => ?_, fun _ _ _ => exec_initialised⟩
  have hinit := initRefusal_of_uninitialised hi
  have hwrite := writeResultRefusal_eq_none.mpr hw
  have hread := readRefusal_eq_none.mpr hrx
  exact ⟨exec_of_refusal hinit, exec_of_refusal (by simp [refusalOf, hinit]),
    exec_of_refusal (by simp [refusalOf, hwrite, hinit]), exec_of_refusal (by simp [refusalOf, hread, hinit])⟩

end Sys2Proof.Machine
end

section
/-! Proofs about runs (43_sequence.md §2): the invariant that every step keeps, what LAST_TX holds while it can still
be read, and that nothing observes the value INIT leaves in it. -/

namespace Sys2Proof.Machine

open Sys2Proof.Safety

/-! ### Where LAST_TX can be read -/

/-- Where LAST_TX can be read after an operation, it is the frame that could be read before, under the same ACK unless a
reset tick came between, or it is the frame just built from ACK (R155 (a), (e)). -/
theorem exec_lastTxLive {i : Instr} {s t : State} (h : exec i s = .next t) (hlive : LastTxLive t) :
    (LastTxLive s ∧ t.lastTx = s.lastTx ∧ (¬ isResetTick i s → t.ack = s.ack)) ∨
    ∃ en m k r, t.lastTx = freshFrame s.ack en m k r ∧ t.ack = s.ack := by
  cases exec_effect h
  case init => simp [LastTxLive] at hlive
  case reqReset => exact .inl ⟨hlive, rfl, fun _ => rfl⟩
  case sendReset hphase hreset =>
    have hrtx : s.rtxPending = true := by simpa [LastTxLive] using hlive
    exact .inl ⟨.inl hrtx, rfl, fun hno => absurd ⟨⟨_, _, _, _, rfl⟩, hreset⟩ hno⟩
  case sendReplay hphase hreset hrtx => exact .inl ⟨.inl hrtx, rfl, fun _ => rfl⟩
  case sendFresh en m k r hphase hreset hrtx => exact .inr ⟨en, m, k, r, rfl, rfl⟩
  case resetSent w hw hphase hkind =>
    have hrtx : s.rtxPending = true := by simpa [LastTxLive] using hlive
    exact .inl ⟨.inl hrtx, rfl, fun _ => rfl⟩
  case written hphase hkind => exact .inl ⟨.inr (.inr ⟨hphase, hkind⟩), rfl, fun _ => rfl⟩
  case writeFailed w hw hbad hphase hkind => exact .inl ⟨.inr (.inr ⟨hphase, hkind⟩), rfl, fun _ => rfl⟩
  case readFailed rx r hr hphase => exact .inl ⟨.inr (.inl hphase), rfl, fun _ => rfl⟩
  case accepted => simp [LastTxLive] at hlive
  case pure hi => exact .inl ⟨hlive, rfl, fun _ => rfl⟩

/-! ### The run's invariant -/

/-- The records a completed operation leaves: those held before, and perhaps one that DEC_RSP makes (R77, R103). -/
theorem exec_produced {i : Instr} {s t : State} (h : exec i s = .next t) :
    t.produced = s.produced ∨ ∃ f d, decodeResponse f = .ok d ∧ t.produced = noteRecord d s.produced := by
  cases exec_effect h
  case accepted f d hsum hd hphase hack => exact .inr ⟨f, d, hd, rfl⟩
  case pure hi =>
    obtain hsame | ⟨f, d, -, hd, hnote⟩ := recordsAfter_cases i s.produced
    · exact .inl hsame
    · exact .inr ⟨f, d, hd, hnote⟩
  all_goals exact .inl rfl

/-- Only a good write of a frame that is no reset frame leads to RX_WAIT, and nothing there changes TX_KIND (R153). -/
theorem exec_rxWait {i : Instr} {s t : State} (h : exec i s = .next t) (hphase : t.phase = .rxWait) :
    (s.phase = .rxWait ∧ t.txKind = s.txKind) ∨ t.txKind ≠ .reset := by
  cases exec_effect h
  case reqReset => exact .inl ⟨hphase, rfl⟩
  case written hkind => exact .inr hkind
  case pure hi => exact .inl ⟨hphase, rfl⟩
  all_goals simp at hphase

/-- INIT leaves nothing to read in LAST_TX, so an operation after which it can be read was no INIT. -/
theorem exec_initialised_of_live {i : Instr} {s t : State} (h : exec i s = .next t) (hinit : t.initialised = true)
    (hlive : LastTxLive t) : s.initialised = true := by
  rcases (exec_initialised h).mp hinit with hs | rfl
  · exact hs
  · cases h
    simp [LastTxLive] at hlive

/-- Every completed operation keeps the run's invariant. -/
theorem exec_runInv {i : Instr} {s t : State} (hs : RunInv s) (h : exec i s = .next t) : RunInv t where
  rxKind hinit hphase := by
    obtain ⟨hp, hkind⟩ | hkind := exec_rxWait h hphase
    · exact hkind ▸ hs.rxKind (exec_initialised_of_live h hinit (.inr (.inl hphase))) hp
    · exact hkind
  frame hinit hlive := by
    obtain ⟨hlive', hlast, -⟩ | ⟨en, m, k, r, hlast, -⟩ := exec_lastTxLive h hlive
    · exact hlast ▸ hs.frame (exec_initialised_of_live h hinit hlive) hlive'
    · exact hlast ▸ freshFrame_isCommand s.ack en m k r
  records d hd := by
    obtain hsame | ⟨f, d', hok, hnote⟩ := exec_produced h
    · exact hs.records d (hsame ▸ hd)
    · rcases mem_noteRecord.mp (hnote ▸ hd) with rfl | hmem
      · exact ⟨f, hok⟩
      · exact hs.records d hmem
  distinct := by
    obtain hsame | ⟨f, d, -, hnote⟩ := exec_produced h
    · exact hsame ▸ hs.distinct
    · exact hnote ▸ noteRecord_nodup hs.distinct

theorem RunInv.leaveRequests {s : State} (h : RunInv s) (rest : List (List Byte)) : RunInv (s.leaveRequests rest) :=
  ⟨h.rxKind, h.frame, h.records, h.distinct⟩

theorem RunInv.refuse {s : State} (h : RunInv s) (r : Refusal) : RunInv (s.refuse r) :=
  ⟨h.rxKind, h.frame, h.records, h.distinct⟩

/-- Settles O45: reset holds no frame and no record. -/
theorem runInvariantAtReset : Obligations.RunInvariantAtReset := by
  unfold Obligations.RunInvariantAtReset
  exact { rxKind := fun _ hphase => by simp [State.reset] at hphase
          frame := fun _ hlive => by simp [LastTxLive, State.reset] at hlive
          records := fun d hd => by simp [State.reset] at hd
          distinct := List.nodup_nil }

/-- Settles O46: taking a request and recording a refusal touch nothing the invariant reads, and every completed
operation keeps it. -/
theorem stepKeepsTheRunInvariant : Obligations.StepKeepsTheRunInvariant := by
  unfold Obligations.StepKeepsTheRunInvariant
  intro s t hs h
  obtain ⟨-, rfl⟩ | ⟨bs, rest, -, ⟨e, -, rfl⟩ | ⟨i, -, hexec⟩ | ⟨i, r, -, -, rfl⟩⟩ := step_cases h
  · exact hs
  · exact RunInv.refuse (RunInv.leaveRequests hs rest) _
  · exact exec_runInv (RunInv.leaveRequests hs rest) hexec
  · exact RunInv.refuse (RunInv.leaveRequests hs rest) _

/-! ### LAST_TX where nothing reads it -/

/-- The same state with another frame in LAST_TX. -/
def withLastTx (s : State) (f : TxFrame) : State := { s with lastTx := f }

/-- Nothing reads LAST_TX in deciding whether an operation is refused. -/
theorem refusalOf_withLastTx (i : Instr) (s : State) (f : TxFrame) : refusalOf i (withLastTx s f) = refusalOf i s := by
  cases i <;> rfl

/-- Two states that agree up to LAST_TX where it cannot be read are the same, or differ in LAST_TX alone. -/
theorem agreeButUnread_iff {s t : State} :
    AgreeButUnread s t ↔ s = t ∨ ¬ LastTxLive s ∧ t = withLastTx s t.lastTx := by
  constructor
  · rintro ⟨hagree, hsame | hdead⟩
    · exact .inl (by rw [← hagree, ← hsame])
    · exact .inr ⟨hdead, hagree.symm⟩
  · rintro (rfl | ⟨hdead, h⟩)
    · exact ⟨rfl, .inl rfl⟩
    · exact ⟨h.symm, .inr hdead⟩

theorem AgreeButUnread.refl (s : State) : AgreeButUnread s s := ⟨rfl, .inl rfl⟩

theorem agreeButUnread_of_eq {s t : State} {f : TxFrame} (hdead : ¬ LastTxLive s) (h : t = withLastTx s f) :
    AgreeButUnread s t := ⟨by rw [h]; rfl, .inr hdead⟩

/-- Where LAST_TX cannot be read, an operation completes alike whatever frame stands there, and what it leaves is the
same up to a LAST_TX that still cannot be read. -/
theorem exec_withLastTx {i : Instr} {s t : State} (hdead : ¬ LastTxLive s) (f : TxFrame) (h : exec i s = .next t) :
    ∃ t', exec i (withLastTx s f) = .next t' ∧ AgreeButUnread t t' := by
  obtain ⟨hnorx, hnotx⟩ : s.phase ≠ .rxWait ∧ ¬ (s.phase = .txWait ∧ s.txKind ≠ .reset) :=
    ⟨fun hp => hdead (.inr (.inl hp)), fun hp => hdead (.inr (.inr hp))⟩
  cases i
  case init =>
    cases h
    exact ⟨_, rfl, AgreeButUnread.refl _⟩
  case reqReset =>
    obtain ⟨hi, rfl⟩ := execReqReset_next.mp h
    exact ⟨_, execReqReset_next.mpr ⟨hi, rfl⟩, agreeButUnread_of_eq hdead rfl⟩
  case txSelect =>
    obtain ⟨hi, hp, ⟨hr, rfl⟩ | ⟨hr, hrtx, rfl⟩ | ⟨hr, hrtx, rfl⟩⟩ := execTxSelect_next.mp h
    · refine ⟨_, execTxSelect_next.mpr ⟨hi, hp, .inl ⟨hr, rfl⟩⟩, agreeButUnread_of_eq ?_ rfl⟩
      simpa [LastTxLive] using fun hrtx => hdead (.inl hrtx)
    · exact absurd (.inl hrtx) hdead
    · exact ⟨_, execTxSelect_next.mpr ⟨hi, hp, .inr (.inr ⟨hr, hrtx, rfl⟩)⟩, AgreeButUnread.refl _⟩
  case txResult =>
    obtain ⟨hw, hi, hp, ⟨hk, rfl⟩ | ⟨hk, -, -⟩ | ⟨hk, -, -⟩⟩ := execTxResult_next.mp h
    · refine ⟨_, execTxResult_next.mpr ⟨hw, hi, hp, .inl ⟨hk, rfl⟩⟩, agreeButUnread_of_eq ?_ rfl⟩
      simpa [LastTxLive] using fun hrtx => hdead (.inl hrtx)
    · exact absurd ⟨hp, hk⟩ hnotx
    · exact absurd ⟨hp, hk⟩ hnotx
  case rxResult => exact absurd (execRxResult_ends h).2.1 hnorx
  all_goals
    obtain ⟨hallowed, rfl⟩ := (exec_pure_next_iff rfl).mp h
    exact ⟨_, exec_pure_of_allowed rfl hallowed, agreeButUnread_of_eq hdead rfl⟩

/-- Two states that agree up to an unread LAST_TX make the same step, and agree after it. -/
theorem step_agreeButUnread {s t : State} (hagree : AgreeButUnread s t) :
    ∃ s' t', step s = .next s' ∧ step t = .next t' ∧ AgreeButUnread s' t' := by
  obtain ⟨s', h⟩ := step_next s
  refine ⟨s', ?_⟩
  obtain rfl | ⟨hdead, ht⟩ := agreeButUnread_iff.mp hagree
  · exact ⟨s', h, h, AgreeButUnread.refl s'⟩
  rw [ht]
  obtain ⟨hr, rfl⟩ | ⟨bs, rest, hr, ⟨e, hd, rfl⟩ | ⟨i, hd, hexec⟩ | ⟨i, r, hd, hrefused, rfl⟩⟩ := step_cases h
  · exact ⟨_, h, step_of_empty hr, agreeButUnread_of_eq hdead rfl⟩
  · exact ⟨_, h, step_of_undecodable hr hd, agreeButUnread_of_eq hdead rfl⟩
  · obtain ⟨t', ht', hagree'⟩ := exec_withLastTx (s := s.leaveRequests rest) hdead t.lastTx hexec
    exact ⟨t', h, (step_of_decodes (s := withLastTx s t.lastTx) hr hd).trans (congrArg (settle _) ht'), hagree'⟩
  · have hrefused' : exec i (withLastTx (s.leaveRequests rest) t.lastTx) = .refused r :=
      exec_of_refusal ((refusalOf_withLastTx ..).trans (refusalOf_of_refused hrefused))
    exact ⟨_, h, (step_of_decodes (s := withLastTx s t.lastTx) hr hd).trans (congrArg (settle _) hrefused'),
      agreeButUnread_of_eq hdead rfl⟩

/-- Two runs from states that agree up to an unread LAST_TX agree so at every step. -/
theorem run_agreeButUnread {s t : State} (hagree : AgreeButUnread s t) (n : Nat) :
    ∃ s' t', Sys2Proof.core.run n s = .next s' ∧ Sys2Proof.core.run n t = .next t' ∧ AgreeButUnread s' t' := by
  induction n generalizing s t with
  | zero => exact ⟨s, t, rfl, rfl, hagree⟩
  | succ n ih =>
    obtain ⟨s', t', hs, ht, hagree'⟩ := step_agreeButUnread hagree
    rw [run_succ_next hs, run_succ_next ht]
    exact ih hagree'

/-- Settles O52: after INIT nothing can read LAST_TX, and agreement up to an unread LAST_TX is kept by every step. -/
theorem lastTxAfterInitIsNeverObserved : Obligations.LastTxAfterInitIsNeverObserved := by
  unfold Obligations.LastTxAfterInitIsNeverObserved
  refine ⟨fun s t h f => ?_, fun s t hagree n => run_agreeButUnread hagree n⟩
  cases h
  exact agreeButUnread_of_eq (by simp [LastTxLive]) rfl

end Sys2Proof.Machine
end

section
/-! Proofs about the sequencer operations (43_sequence.md §1): the state each leaves, for INIT, TX_SELECT, TX_RESULT and
RX_RESULT, and one tick after another. -/

namespace Sys2Proof.Machine

open Sys2Proof.Safety

/-! ### INIT and reset -/

/-- Settles O28: the register writes of INIT, LAST_TX taking a free value. -/
theorem initResetsTheInstance : Obligations.InitResetsTheInstance := by
  unfold Obligations.InitResetsTheInstance
  exact fun s => ⟨Config.freeFrame s.freeDraws, rfl⟩

/-- Settles O29: the fields of the reset state. -/
theorem resetStateIsAFreshSession : Obligations.ResetStateIsAFreshSession := by
  unfold Obligations.ResetStateIsAFreshSession
  exact ⟨rfl, rfl, rfl, rfl, rfl, rfl, rfl, rfl, rfl, rfl, rfl⟩

/-! ### TX_SELECT -/

/-- CTRL of a command frame as a number (R61). -/
theorem commandCtrl_toNat (a : Bit) : (commandCtrl a).toNat = 0x10 + a.toNat := by
  revert a; decide

/-- Dropping bit 7 is the remainder modulo 128 (R62). -/
theorem enableByte_toNat (en : Byte) : (enableByte en).toNat = en.toNat % 128 := by
  rw [enableByte, BitVec.toNat_and]
  exact Nat.and_two_pow_sub_one_eq_mod en.toNat 7

/-- The escrow bits do not overlap, so the byte is their sum (R63). -/
theorem escrowByte_toNat (m k r : Bit) : (escrowByte m k r).toNat = 16 * m.toNat + 32 * k.toNat + 64 * r.toNat := by
  revert m k r; decide

/-- Settles O31: the three paths of R152, with the frames of each written out. -/
theorem txSelectChoosesTheFrame : Obligations.TxSelectChoosesTheFrame := by
  unfold Obligations.TxSelectChoosesTheFrame
  intro en mode stack reject s hi hp
  refine ⟨fun hr => ?_, fun hr hx => ?_, fun hr hx => ⟨freshFrame s.ack en mode stack reject, ?_, ?_⟩⟩
  · rw [← resetFrame_eq]
    exact execTxSelect_next.mpr ⟨hi, hp, .inl ⟨hr, rfl⟩⟩
  · exact execTxSelect_next.mpr ⟨hi, hp, .inr (.inl ⟨hr, hx, rfl⟩)⟩
  · exact execTxSelect_next.mpr ⟨hi, hp, .inr (.inr ⟨hr, hx, rfl⟩)⟩
  · rw [freshFrame, commandFrame_eq]
    exact ⟨rfl, rfl, commandCtrl_toNat s.ack, enableByte_toNat en, escrowByte_toNat mode stack reject, rfl, rfl, rfl⟩

/-! ### TX_RESULT -/

/-- Settles O32: the three ends of R153, for each write result. -/
theorem txResultEndsOrContinuesTheTick : Obligations.TxResultEndsOrContinuesTheTick := by
  unfold Obligations.TxResultEndsOrContinuesTheTick
  intro s hi hp
  have hend : s.txKind = .reset → ∀ w, w ≠ 3#2 → exec (.txResult w) s = .next (s.endTick.answer (writeResponse w)) :=
    fun hk w hw => execTxResult_next.mpr ⟨hw, hi, hp, .inl ⟨hk, rfl⟩⟩
  have hfail : s.txKind ≠ .reset → ∀ w, w ≠ 3#2 → w ≠ 0#2 →
      exec (.txResult w) s = .next (s.retain.answer (writeResponse w)) :=
    fun hk w hw hbad => execTxResult_next.mpr ⟨hw, hi, hp, .inr (.inr ⟨hk, hbad, rfl⟩)⟩
  refine ⟨fun hk => ⟨hend hk _ (by decide), hend hk _ (by decide), hend hk _ (by decide)⟩,
    fun hk => ⟨?_, hfail hk _ (by decide) (by decide), hfail hk _ (by decide) (by decide)⟩⟩
  exact execTxResult_next.mpr ⟨by decide, hi, hp, .inr (.inl ⟨hk, rfl, rfl⟩)⟩

/-! ### RX_RESULT -/

/-- RX_RESULT on a byte sequence that fits, in its PHASE, is what the sequence is judged to be (R154). -/
theorem execRxResult_bytes {f : List Byte} {s t : State} (hlen : f.length ≤ 254) (hi : s.initialised = true)
    (hp : s.phase = .rxWait) (h : judgeResponse f s = .next t) : exec (.rxResult (.bytes f)) s = .next t :=
  execRxResult_next.mpr ⟨seqRefusal_eq_none.mpr hlen, hi, hp, .inr ⟨f, rfl, h⟩⟩

/-- Bit 0 of two bytes agrees when the bytes masked by 1 do. -/
theorem and_one_eq_iff {x y : Byte} : x &&& 1#8 = y &&& 1#8 ↔ x.getLsbD 0 = y.getLsbD 0 := by
  rw [BitVec.and_one_eq_setWidth_ofBool_getLsbD, BitVec.and_one_eq_setWidth_ofBool_getLsbD]
  cases x.getLsbD 0 <;> cases y.getLsbD 0 <;> simp

/-- The ack comparison of a retained frame with a response (R132, R154). -/
theorem ackBitsMatch_frame {sent : TxFrame} {f : List Byte} :
    ackBitsMatch (frameBytes sent) f = true ↔ 3 ≤ f.length ∧ (f.getD 2 0#8).getLsbD 0 = sent.ctrl.getLsbD 0 := by
  have hsent : 3 ≤ (frameBytes sent).length := by simp [frameBytes]
  rw [ackBitsMatch_eq, and_one_eq_iff, eq_comm (b := BitVec.getLsbD (byteAt f 2) 0)]
  exact ⟨fun ⟨_, hf, hbit⟩ => ⟨hf, hbit⟩, fun ⟨hf, hbit⟩ => ⟨hsent, hf, hbit⟩⟩

/-- CHECKSUM_OK on any bytes: the kind's length, and the XOR of the span in the last byte (R131). -/
theorem checksumHolds_iff {f : List Byte} {kind : FrameKind} : checksumHolds f kind = true ↔
    ∃ (x y : Byte) (span : List Byte), f = x :: span ++ [y, span.foldr (· ^^^ ·) 0#8] ∧
      span.length + 3 = requiredLength kind := by
  constructor
  · intro h
    have hlen := checksumHolds_length h
    obtain ⟨n, hn⟩ : ∃ n, requiredLength kind = n + 3 := by
      cases kind
      · exact ⟨5, rfl⟩
      · exact ⟨8, rfl⟩
    obtain ⟨x, y, c, span, rfl, hspan⟩ := frame_split (hlen.trans hn)
    rw [checksumHolds_frame, Bool.and_eq_true, beq_iff_eq] at h
    exact ⟨x, y, span, by rw [h.2], of_decide_eq_true h.1⟩
  · rintro ⟨x, y, span, rfl, hspan⟩
    rw [checksumHolds_frame, hspan]
    simp

section eleven
variable {f0 f1 f2 f3 f4 f5 f6 f7 f8 f9 f10 : Byte}

/-- The framing test of the length byte (R102). -/
theorem decodeResponse_declaredLen (h1 : f1 ≠ 0x0B#8) :
    decodeResponse [f0, f1, f2, f3, f4, f5, f6, f7, f8, f9, f10] = .error .declaredLen := by
  rw [decodeResponse_eleven, if_pos h1]

/-- The framing test of STX (R102). -/
theorem decodeResponse_stx (h1 : f1 = 0x0B#8) (h0 : f0 ≠ 0x02#8) :
    decodeResponse [f0, f1, f2, f3, f4, f5, f6, f7, f8, f9, f10] = .error .stx := by
  rw [decodeResponse_eleven, if_neg (not_not.mpr h1), if_pos h0]

/-- The framing test of ETX (R102). -/
theorem decodeResponse_etx (h1 : f1 = 0x0B#8) (h0 : f0 = 0x02#8) (h9 : f9 ≠ 0x03#8) :
    decodeResponse [f0, f1, f2, f3, f4, f5, f6, f7, f8, f9, f10] = .error .etx := by
  rw [decodeResponse_eleven, if_neg (not_not.mpr h1), if_neg (not_not.mpr h0), if_pos h9]

end eleven

section failures
variable {f : List Byte} {s : State} (hlen : f.length ≤ 254) (hi : s.initialised = true) (hp : s.phase = .rxWait)
include hlen hi hp

/-- A response without LAST_TX's ack bit fails the first test (R154, R183). -/
theorem exec_rxResult_ackMismatch (hne : f ≠ []) (hack : ackBitsMatch (frameBytes s.lastTx) f = false) :
    exec (.rxResult (.bytes f)) s = .next (s.retain.answer .ackMismatch) :=
  execRxResult_bytes hlen hi hp (judgeResponse_next.mpr (.inr (.inl ⟨hne, hack, rfl⟩)))

/-- A response with the ack bit and a bad checksum fails the second test (R154, R183). -/
theorem exec_rxResult_checksumError (hne : f ≠ []) (hack : ackBitsMatch (frameBytes s.lastTx) f = true)
    (hsum : checksumHolds f .rsp = false) :
    exec (.rxResult (.bytes f)) s = .next (s.retain.answer .checksumError) :=
  execRxResult_bytes hlen hi hp (judgeResponse_next.mpr (.inr (.inr (.inl ⟨hne, hack, hsum, rfl⟩))))

/-- A response with the ack bit, a good checksum and bad framing fails the third test (R154, R183). -/
theorem exec_rxResult_invalidCommand {e : Reason} (hne : f ≠ [])
    (hack : ackBitsMatch (frameBytes s.lastTx) f = true) (hsum : checksumHolds f .rsp = true)
    (he : decodeResponse f = .error e) :
    exec (.rxResult (.bytes f)) s = .next (s.retain.answer (.invalidCommand e)) :=
  execRxResult_bytes hlen hi hp
    (judgeResponse_next.mpr (.inr (.inr (.inr (.inl ⟨e, hne, hack, hsum, he, rfl⟩)))))

end failures

/-- Settles O33: each failure is one test of the judgement, the tests before it passed. -/
theorem rxResultFailuresInOrder : Obligations.RxResultFailuresInOrder := by
  unfold Obligations.RxResultFailuresInOrder
  intro s hi hp
  refine ⟨?_, ?_, fun f hne hlen hack => ?_, fun f h3 hlen hack hsum => ?_, ?_⟩
  · exact execRxResult_next.mpr ⟨rfl, hi, hp, .inl ⟨rfl, rfl⟩⟩
  · exact execRxResult_bytes (by simp) hi hp (judgeResponse_next.mpr (.inl ⟨rfl, rfl⟩))
  · refine exec_rxResult_ackMismatch hlen hi hp hne ?_
    rw [← Bool.not_eq_true, ackBitsMatch_frame]
    rintro ⟨h3, hbit⟩
    exact hack.elim (by omega) (fun hdiff => hdiff hbit)
  · refine exec_rxResult_checksumError hlen hi hp (List.ne_nil_of_length_pos (by omega))
      (ackBitsMatch_frame.mpr ⟨h3, hack⟩) ?_
    rw [← Bool.not_eq_true, checksumHolds_iff]
    rintro ⟨x, y, span, hf, hspan⟩
    exact hsum ⟨x, y, span, Nat.add_right_cancel hspan, hf⟩
  · intro x0 x1 c b3 b4 b5 b6 b7 b8 x9 chk hack hchk
    have hbad := fun e => exec_rxResult_invalidCommand (e := e)
      (f := [x0, x1, c, b3, b4, b5, b6, b7, b8, x9, chk]) (by simp) hi hp (by simp) (ackBitsMatch_of_ctrl hack)
      ((checksumHolds_eleven ..).mpr hchk)
    exact ⟨fun h1 => hbad _ (decodeResponse_declaredLen h1), fun h1 h0 => hbad _ (decodeResponse_stx h1 h0),
      fun h1 h0 h9 => hbad _ (decodeResponse_etx h1 h0 h9)⟩

/-- Bit 0 of a byte is the byte cut to one bit. -/
theorem and_one_setWidth (c : Byte) : (c &&& 1#8).setWidth 1 = c.setWidth 1 := by
  revert c; decide

/-- The record of a well-framed response, its fields written out (R103). -/
theorem decodeResponse_wellFramed (c b3 b4 b5 b6 b7 b8 chk : Byte) :
    decodeResponse [0x02#8, 0x0B#8, c, b3, b4, b5, b6, b7, b8, 0x03#8, chk] =
      .ok ⟨c, c.setWidth 1, b5 ++ b4 ++ b3, b6, b7, b8, chk⟩ := by
  simp only [decodeResponse_eleven, and_one_setWidth, packPayload_eq_append]
  rfl

/-- A read that ends Accepted is a byte sequence that passed every test (R154). -/
theorem exec_rxResult_accepted {rx : ReadResult} {s t : State} (h : exec (.rxResult rx) s = .next t)
    (hacc : wasAccepted t) : ∃ f d, rx = .bytes f ∧ ackBitsMatch (frameBytes s.lastTx) f = true ∧
      checksumHolds f .rsp = true ∧ decodeResponse f = .ok d ∧ t = acceptedState d s := by
  obtain ⟨-, -, ⟨r, rfl, hr⟩ | haccepted⟩ := execRxResult_ends h
  · exact absurd ((wasAccepted_answer _ r).mp hacc) (IsReadFailure.not_accepted hr)
  · exact haccepted

/-- Settles O34: a good response passes every test, and a response that passes every test is a good one. -/
theorem rxResultAcceptsGoodResponses : Obligations.RxResultAcceptsGoodResponses := by
  unfold Obligations.RxResultAcceptsGoodResponses
  refine ⟨?_, fun rx s t h hacc => ?_⟩
  · rintro c b3 b4 b5 b6 b7 b8 chk d s hi hp hack hchk rfl
    exact exec_rxResult_of_decodes hi hp (ackBitsMatch_of_ctrl hack) ((checksumHolds_eleven ..).mpr hchk)
      (decodeResponse_wellFramed ..)
  · obtain ⟨f, d, rfl, hack, hsum, hd, -⟩ := exec_rxResult_accepted h hacc
    obtain ⟨c, b3, b4, b5, b6, b7, b8, chk, rfl, -⟩ := decodeResponse_ok.mp hd
    obtain ⟨-, hbit⟩ := ackBitsMatch_frame.mp hack
    exact ⟨c, b3, b4, b5, b6, b7, b8, hbit, by rw [(checksumHolds_eleven ..).mp hsum]⟩

/-- Settles O35: the record of an accepted response may be an operand from then on, and the accessors of it are what
the answer carries. -/
theorem acceptedReportsWhatTheAccessorsGive : Obligations.AcceptedReportsWhatTheAccessorsGive := by
  unfold Obligations.AcceptedReportsWhatTheAccessorsGive
  intro rx s t d st e b c v h hresp
  have hacc : wasAccepted t := by simp [wasAccepted, hresp, outcomeOf]
  obtain ⟨f, d', -, -, -, -, rfl⟩ := exec_rxResult_accepted h hacc
  obtain ⟨rfl, rfl, rfl, rfl, rfl, rfl⟩ : d' = d ∧ deviceState d' = st ∧ deviceEvents d' = e ∧
    cashboxPresent d' = b ∧ creditIndex d' = c ∧ diagnostics d' = v := by simpa using hresp
  have hmem : recordRefusal d' (acceptedState d' s) = none := by simp [mem_noteRecord]
  exact ⟨rfl, exec_pure_of_allowed (i := .decState d') rfl hmem, exec_pure_of_allowed (i := .decEvents d') rfl hmem,
    exec_pure_of_allowed (i := .decCashbox d') rfl hmem, exec_pure_of_allowed (i := .decCredit d') rfl hmem,
    exec_pure_of_allowed (i := .decDiag d') rfl hmem⟩

end Sys2Proof.Machine
end

section
/-! Proofs about the registers (10_state.md §1): which operations write each, and with what. Each is a case split over
what a completed operation can do. -/

namespace Sys2Proof.Machine

open Sys2Proof.Safety

/-! ### LAST_TX -/

/-- LAST_TX keeps its frame unless a fresh frame is sent, which is then the one handed out (R23, R152). -/
theorem exec_lastTx {i : Instr} {s t : State} (h : exec i s = .next t) (hinit : i ≠ .init) :
    t.lastTx = s.lastTx ∨ ∃ en m k r, i = .txSelect en m k r ∧ s.resetReq = false ∧ s.rtxPending = false ∧
      t.response = some (.tx t.lastTx .fresh) := by
  cases exec_effect h
  case init => exact absurd rfl hinit
  case sendFresh en m k r hphase hreset hrtx => exact .inr ⟨en, m, k, r, rfl, hreset, hrtx, rfl⟩
  all_goals exact .inl rfl

/-- A frame answered as fresh is the one LAST_TX then holds (R152). -/
theorem exec_answers_fresh {i : Instr} {s t : State} {f : TxFrame} (h : exec i s = .next t)
    (hf : t.response = some (.tx f .fresh)) : ∃ en m k r, i = .txSelect en m k r ∧ t.lastTx = f ∧
      f = freshFrame s.ack en m k r ∧ t.ack = s.ack := by
  cases exec_effect h
  case sendFresh en m k r hphase hreset hrtx =>
    obtain rfl : freshFrame s.ack en m k r = f := by simpa using hf
    exact ⟨en, m, k, r, rfl, rfl, rfl, rfl⟩
  case resetSent w _ _ _ => exact absurd (Option.some.inj hf) (writeResponse_ne_tx w f .fresh)
  case writeFailed w _ _ _ _ => exact absurd (Option.some.inj hf) (writeResponse_ne_tx w f .fresh)
  case readFailed hr _ => exact absurd (Option.some.inj hf) (hr.ne_tx f .fresh)
  case pure hi => exact absurd (Option.some.inj hf) (pureAnswer_ne_tx hi f .fresh)
  all_goals simp at hf

/-- Settles O37: only the fresh path writes LAST_TX, with the frame it answers. -/
theorem lastTxHoldsTheFreshFrame : Obligations.LastTxHoldsTheFreshFrame := by
  unfold Obligations.LastTxHoldsTheFreshFrame
  refine fun i s t h hinit => ⟨exec_lastTx h hinit, fun f hf => ?_⟩
  obtain ⟨_, _, _, _, _, hlast, _, _⟩ := exec_answers_fresh h hf
  exact hlast

/-! ### RTX_PENDING and RESET_REQ, PHASE and TX_KIND -/

/-- Settles O38: the flags of each way an operation can complete. -/
theorem flagsAreSetAndClearedAsListed : Obligations.FlagsAreSetAndClearedAsListed := by
  unfold Obligations.FlagsAreSetAndClearedAsListed
  intro i s t h
  cases exec_effect h
  case sendReset => exact ⟨rfl, rfl⟩
  case sendReplay hphase hreset hrtx => exact ⟨rfl, hreset⟩
  case sendFresh hphase hreset hrtx => exact ⟨rfl, hreset⟩
  case resetSent w hw hphase hkind => simp [hkind]
  case written hphase hkind => simp
  case writeFailed w hw hbad hphase hkind => simp [hkind, hbad]
  case readFailed rx r hr hphase => simp [hr.not_accepted]
  case accepted => simp [wasAccepted_acceptedState]
  case init | reqReset => exact ⟨rfl, rfl⟩
  case pure hi =>
    cases i
    case init | reqReset | txSelect | txResult | rxResult => cases hi
    all_goals exact ⟨rfl, rfl⟩

/-- Settles O39: the PHASE each operation starts from and leaves, and the frame kind of the tick. -/
theorem phaseFollowsTheTickOrder : Obligations.PhaseFollowsTheTickOrder := by
  unfold Obligations.PhaseFollowsTheTickOrder
  intro i s t h
  cases exec_effect h
  case init | reqReset => exact ⟨rfl, rfl⟩
  case sendReset hphase hreset => simp [hphase, hreset]
  case sendReplay hphase hreset hrtx => simp [hphase, hreset, hrtx]
  case sendFresh hphase hreset hrtx => simp [hphase, hreset, hrtx]
  case resetSent w hw hphase hkind => simp [hphase, hkind]
  case written hphase hkind => simp [hphase, hkind]
  case writeFailed w hw hbad hphase hkind => simp [hphase, hbad]
  case readFailed rx r hr hphase => simp [hphase]
  case accepted f d hsum hd hphase hack => simp [hphase]
  case pure hi =>
    cases i
    case init | reqReset | txSelect | txResult | rxResult => cases hi
    all_goals exact ⟨rfl, rfl⟩

/-- Settles O53: in its PHASE each operation of the tick passes its tests, and leaves the PHASE the next one asks for. -/
theorem tickOrderIsNeverRefused : Obligations.TickOrderIsNeverRefused := by
  unfold Obligations.TickOrderIsNeverRefused
  intro en m k r w rx s hi hp hw hrx
  obtain ⟨t, ht⟩ : ∃ t, exec (.txSelect en m k r) s = .next t :=
    exec_completes_iff.mpr (by simp [refusalOf, hi, hp])
  have hti : t.initialised = true := (exec_initialised ht).mpr (.inl hi)
  obtain ⟨-, htp, -⟩ := phaseFollowsTheTickOrder _ _ _ ht
  obtain ⟨u, hu⟩ : ∃ u, exec (.txResult w) t = .next u := exec_completes_iff.mpr (by simp [refusalOf, hw, hti, htp])
  obtain ⟨-, -, hidle, hread⟩ := phaseFollowsTheTickOrder _ _ _ hu
  refine ⟨t, u, ht, hu, hidle, fun hk hok => ?_⟩
  have hui : u.initialised = true := (exec_initialised hu).mpr (.inl hti)
  obtain ⟨v, hv⟩ : ∃ v, exec (.rxResult rx) u = .next v :=
    exec_completes_iff.mpr (by simp [refusalOf, readRefusal_eq_none.mpr hrx, hui, hread hk hok])
  exact ⟨v, hv, (phaseFollowsTheTickOrder _ _ _ hv).2.1⟩

/-! ### LAST_STATE and error entry -/

/-- Settles O40: INIT gives Offline, and besides an acceptance nothing writes LAST_STATE. -/
theorem lastStateChangesOnlyOnAcceptance : Obligations.LastStateChangesOnlyOnAcceptance := by
  unfold Obligations.LastStateChangesOnlyOnAcceptance
  intro i s t h
  cases exec_effect h
  case init => exact ⟨fun _ => rfl, fun hno => absurd rfl hno⟩
  case accepted f d hsum hd hphase hack =>
    exact ⟨nofun, fun _ hno => absurd ⟨⟨.bytes f, rfl⟩, wasAccepted_acceptedState d s⟩ hno⟩
  case pure hi => exact ⟨fun hinit => absurd hinit (ne_init_of_isPure hi), fun _ _ => rfl⟩
  all_goals exact ⟨nofun, fun _ _ => rfl⟩

theorem not_wasError_of_ok {s : State} {r : Response} (hr : s.response = some r) (hok : outcomeOf r = .ok) :
    ¬ wasError s := by
  rintro ⟨r', hr', hne, -⟩
  obtain rfl : r = r' := Option.some.inj (hr.symm.trans hr')
  exact hne hok

/-- Settles O41: a result that is an error leaves by error entry, whichever of the six it is. -/
theorem errorEntryRetainsTheFrame : Obligations.ErrorEntryRetainsTheFrame := by
  unfold Obligations.ErrorEntryRetainsTheFrame
  rintro i s t h hi herr
  cases exec_effect h
  case resetSent w hw hphase hkind =>
    obtain ⟨-, hno⟩ | ⟨rx, hrx⟩ := hi
    · exact absurd hkind hno
    · cases hrx
  case written => exact absurd herr (not_wasError_of_ok rfl rfl)
  case writeFailed => rfl
  case readFailed => rfl
  case accepted =>
    obtain ⟨r, hr, -, hne⟩ := herr
    obtain rfl := Option.some.inj hr
    exact absurd rfl hne
  case pure hpure => obtain ⟨⟨w, rfl⟩, -⟩ | ⟨rx, rfl⟩ := hi <;> cases hpure
  all_goals obtain ⟨⟨w, hw⟩, -⟩ | ⟨rx, hrx⟩ := hi <;> contradiction

/-! ### Outcomes -/

/-- Settles O42: the outcome of each way an operation can complete, and the codes evaluated. -/
theorem outcomesComeFromTheirOperations : Obligations.OutcomesComeFromTheirOperations := by
  unfold Obligations.OutcomesComeFromTheirOperations
  refine ⟨fun i s t h => ?_, by decide⟩
  cases exec_effect h
  case init | reqReset | sendReset | sendReplay | sendFresh | written => exact ⟨_, rfl, nofun⟩
  case resetSent w hw _ _ | writeFailed w hw _ _ _ =>
    refine ⟨_, rfl, ?_⟩
    obtain ⟨rfl, hr⟩ | ⟨rfl, hr⟩ | ⟨rfl, hr⟩ := writeResponse_cases hw <;> rw [hr]
    · exact nofun
    · rfl
    · rfl
  case readFailed rx r hr _ =>
    refine ⟨r, rfl, ?_⟩
    obtain rfl | rfl | rfl | ⟨e, rfl⟩ := hr
    · exact ⟨rx, rfl⟩
    · exact ⟨rx, rfl⟩
    · exact ⟨rx, rfl⟩
    · exact .inl ⟨rx, rfl⟩
  case accepted f d _ _ _ _ => exact ⟨_, rfl, .bytes f, rfl⟩
  case pure hi =>
    refine ⟨_, rfl, ?_⟩
    obtain hok | ⟨f, r, rfl, hr⟩ := pureAnswer_cases hi
    · rw [hok]
      rintro rx rfl
      cases hi
    · rw [hr]
      exact .inr ⟨f, rfl⟩

end Sys2Proof.Machine
end

section
/-! Proofs about the codec operations (41_codec.md): what they build and unpack, and that the pure operations touch no
register. -/

namespace Sys2Proof.Machine

open Sys2Proof.Safety

/-! ### Building and unpacking frames -/

/-- Settles O11: the frame ENC_CMD builds, its checksum worked out. -/
theorem encCmdBuildsTheFrame : Obligations.EncCmdBuildsTheFrame := by
  unfold Obligations.EncCmdBuildsTheFrame
  intro ctrl en esc s
  rw [← commandFrame_eq]
  exact ⟨rfl, rfl⟩

/-- Settles O13: each framing test that fails names its reason, and a response that passes them all is unpacked. -/
theorem decRspValidatesAndUnpacks : Obligations.DecRspValidatesAndUnpacks := by
  unfold Obligations.DecRspValidatesAndUnpacks
  refine fun s => ⟨fun f hlen hne => ?_, fun f0 f1 f2 f3 f4 f5 f6 f7 f8 f9 f10 => ?_⟩
  · exact execDecRsp_next.mpr ⟨hlen, .inl ⟨_, decodeResponse_length hne, rfl⟩⟩
  · have hbad : ∀ e, decodeResponse [f0, f1, f2, f3, f4, f5, f6, f7, f8, f9, f10] = .error e →
        exec (.decRsp [f0, f1, f2, f3, f4, f5, f6, f7, f8, f9, f10]) s = .next (s.answer (.invalidCommand e)) :=
      fun e he => execDecRsp_next.mpr ⟨by simp, .inl ⟨e, he, rfl⟩⟩
    refine ⟨fun h1 => hbad _ (decodeResponse_declaredLen h1), fun h1 h0 => hbad _ (decodeResponse_stx h1 h0),
      fun h1 h0 h9 => hbad _ (decodeResponse_etx h1 h0 h9), ?_⟩
    rintro rfl rfl rfl
    exact execDecRsp_next.mpr ⟨by simp, .inr ⟨_, decodeResponse_wellFramed .., rfl⟩⟩

/-! ### The accessors -/

/-- The state DEC_STATE answers has its payload bit set, if it has one (R104). -/
theorem deviceState_bit {d : DecodedRecord} {k : Nat} (h : stateBit (deviceState d) = some k) :
    d.payload.getLsbD k = true := by
  unfold deviceState at h
  split_ifs at h with hbit hbit hbit hbit hbit hbit hbit hbit
  case neg => cases h
  all_goals
    cases h
    exact hbit

/-- A set bit makes DEC_STATE answer its state, or one of a test that comes before it and has a higher code (R104). -/
theorem stateCode_le_deviceState {d : DecodedRecord} {st : DeviceState} {k : Nat} (hst : stateBit st = some k)
    (hset : d.payload.getLsbD k = true) : (stateCode st).toNat ≤ (stateCode (deviceState d)).toNat := by
  unfold deviceState
  cases st
  case offline => cases hst
  case acceptorFailure =>
    cases hst
    rw [if_pos hset]
  all_goals
    cases hst
    simp only [hset, if_true]
    split_ifs <;> decide

/-- Settles O14: the answer's own bit is set, and every set bit belongs to a state of no higher code. -/
theorem decStatePicksTheHighestPriority : Obligations.DecStatePicksTheHighestPriority := by
  unfold Obligations.DecStatePicksTheHighestPriority
  exact fun d s hmem => ⟨deviceState d, exec_pure_of_allowed (i := .decState d) rfl (recordRefusal_eq_none.mpr hmem),
    fun k => deviceState_bit, fun st k => stateCode_le_deviceState⟩

/-- Settles O15: each bit of the vector is its event's payload bit, and so is its membership in the set. -/
theorem decEventsGathersTheEventBits : Obligations.DecEventsGathersTheEventBits := by
  unfold Obligations.DecEventsGathersTheEventBits
  refine fun d s hmem => ⟨deviceEvents d,
    exec_pure_of_allowed (i := .decEvents d) rfl (recordRefusal_eq_none.mpr hmem),
    deviceEvents_getLsbD d .stacked, deviceEvents_getLsbD d .returned, deviceEvents_getLsbD d .cheated,
    deviceEvents_getLsbD d .billRejected, deviceEvents_getLsbD d .powerUp,
    deviceEvents_getLsbD d .invalidCommandEvt, fun v => ?_⟩
  cases v <;> exact mem_eventSet_deviceEvents

/-- The diagnostic vector built bit by bit, the highest first (R108). -/
theorem diagnostics_eq_concat (d : DecodedRecord) : diagnostics d =
    ((((BitVec.ofBool ((d.ctrl &&& 0x20#8) == 0#8)).concat (d.rsv6 != 0#8)).concat
      (d.payload.extractLsb' 22 2 != 0#2)).concat (d.payload.extractLsb' 13 3 != 0#3)).concat
      (d.payload.getLsbD 7) := rfl

/-- Bit 5 of a byte, by the mask of R108. -/
theorem mask_bit5 (c : Byte) : ((c &&& 0x20#8) == 0#8) = !c.getLsbD 5 := by
  revert c; decide

/-- Three bits of the payload, by the field of R108. -/
theorem extract_three_ne_zero (p : BitVec 24) (k : Nat) :
    (p.extractLsb' k 3 != 0#3) = (p.getLsbD k || p.getLsbD (k + 1) || p.getLsbD (k + 2)) := by
  have hbits : ∀ x : BitVec 3, (x != 0#3) = (x.getLsbD 0 || x.getLsbD 1 || x.getLsbD 2) := by decide
  simp [hbits]

/-- Two bits of the payload, by the field of R108. -/
theorem extract_two_ne_zero (p : BitVec 24) (k : Nat) :
    (p.extractLsb' k 2 != 0#2) = (p.getLsbD k || p.getLsbD (k + 1)) := by
  have hbits : ∀ x : BitVec 2, (x != 0#2) = (x.getLsbD 0 || x.getLsbD 1) := by decide
  simp [hbits]

/-- Settles O18: the bits of the diagnostic vector, each by its mask or field. -/
theorem decDiagReportsReservedBits : Obligations.DecDiagReportsReservedBits := by
  unfold Obligations.DecDiagReportsReservedBits
  refine fun d s hmem => ⟨diagnostics d,
    exec_pure_of_allowed (i := .decDiag d) rfl (recordRefusal_eq_none.mpr hmem), ?_⟩
  rw [diagnostics_eq_concat, mask_bit5, extract_two_ne_zero, extract_three_ne_zero]
  simp [BitVec.getElem_concat]

/-- Two pure operations with the same answer, neither refused, do the same. -/
theorem exec_pure_congr {i j : Instr} {s : State} (hi : isPure i = true) (hj : isPure j = true)
    (hri : refusalOf i s = none) (hrj : refusalOf j s = none) (hafter : afterPure i s = afterPure j s) :
    exec i s = exec j s := by
  rw [exec_pure_of_allowed hi hri, exec_pure_of_allowed hj hrj, hafter]

/-- Settles O19: the accessors' values are functions of the payload, DEC_DIAG's of two more bytes. -/
theorem accessorsReadOnlyThePayload : Obligations.AccessorsReadOnlyThePayload := by
  unfold Obligations.AccessorsReadOnlyThePayload
  intro d d' s hmem hmem' hp
  have hd := recordRefusal_eq_none.mpr hmem
  have hd' := recordRefusal_eq_none.mpr hmem'
  refine ⟨exec_pure_congr rfl rfl hd hd' ?_, exec_pure_congr rfl rfl hd hd' ?_, exec_pure_congr rfl rfl hd hd' ?_,
    exec_pure_congr rfl rfl hd hd' ?_, fun hc h6 => exec_pure_congr rfl rfl hd hd' ?_⟩
  · simp only [afterPure, recordsAfter, pureAnswer, deviceState, hp]
  · simp only [afterPure, recordsAfter, pureAnswer, deviceEvents, hp]
  · simp only [afterPure, recordsAfter, pureAnswer, cashboxPresent, hp]
  · simp only [afterPure, recordsAfter, pureAnswer, creditIndex, hp]
  · simp only [afterPure, recordsAfter, pureAnswer, diagnostics, hp, hc, h6]

/-! ### The pure operations -/

theorem mem_recordsAfter {i : Instr} {d : DecodedRecord} {ds : List DecodedRecord} (h : d ∈ ds) :
    d ∈ recordsAfter i ds := by
  obtain hsame | ⟨f, d', -, -, hnote⟩ := recordsAfter_cases i ds
  · rwa [hsame]
  · rw [hnote]
    exact mem_noteRecord.mpr (.inr h)

theorem noteRecord_of_mem {d : DecodedRecord} {ds : List DecodedRecord} (h : d ∈ ds) : noteRecord d ds = ds := if_pos h

/-- A record returned again is not noted twice. -/
theorem recordsAfter_again (i : Instr) (ds : List DecodedRecord) :
    recordsAfter i (recordsAfter i ds) = recordsAfter i ds := by
  cases i
  case decRsp f =>
    rw [recordsAfter, recordsAfter]
    cases decodeResponse f with
    | error r => rfl
    | ok d => exact noteRecord_of_mem (mem_noteRecord.mpr (.inl rfl))
  all_goals rfl

/-- A pure operation keeps whatever decides about its refusal. -/
theorem refusalOf_afterPure (i : Instr) (s : State) : refusalOf i (afterPure i s) = refusalOf i s := by
  cases i <;> rfl

theorem afterPure_again (i : Instr) (s : State) : afterPure i (afterPure i s) = afterPure i s := by
  simp only [afterPure, recordsAfter_again]

/-- Operands of the right shape, and records the run has returned, are all a pure operation asks for (R78). -/
theorem refusalOf_pure_eq_none {i : Instr} {s : State} (hi : isPure i = true) (hwf : i.wellFormed = true)
    (hrec : ∀ d ∈ operandRecords i, d ∈ s.produced) : refusalOf i s = none := by
  cases i
  case init | reqReset | txSelect | txResult | rxResult => cases hi
  case encCmd | encReset => rfl
  case checksum f | checksumOk f kind | decRsp f => exact seqRefusal_eq_none.mpr (seqFits_iff.mp hwf)
  case ackMatches sent received =>
    simpa [refusalOf, Instr.wellFormed, seqFits_iff] using hwf
  case decState d | decEvents d | decCashbox d | decCredit d | decDiag d =>
    exact recordRefusal_eq_none.mpr (hrec d (List.mem_singleton.mpr rfl))

/-- Settles O20: a pure operation leaves `afterPure`, whose answer is a function of the operands. -/
theorem pureOperationsTouchNoRegister : Obligations.PureOperationsTouchNoRegister := by
  unfold Obligations.PureOperationsTouchNoRegister
  refine ⟨fun i s t hi h => ?_, fun i s hi hwf hrec =>
    ⟨_, exec_pure_of_allowed hi (refusalOf_pure_eq_none hi hwf hrec)⟩⟩
  obtain ⟨-, rfl⟩ := (exec_pure_next_iff hi).mp h
  refine ⟨rfl, rfl, fun d => mem_recordsAfter, fun s' t' h' => ?_⟩
  obtain ⟨-, rfl⟩ := (exec_pure_next_iff hi).mp h'
  rfl

/-- Settles O21: neither its refusal nor its effect sees that a pure operation has run before. -/
theorem pureOperationsAreIdempotent : Obligations.PureOperationsAreIdempotent := by
  unfold Obligations.PureOperationsAreIdempotent
  intro i s t hi h
  obtain ⟨hallowed, rfl⟩ := (exec_pure_next_iff hi).mp h
  exact (exec_pure_next_iff hi).mpr ⟨(refusalOf_afterPure i s).trans hallowed, afterPure_again i s⟩

end Sys2Proof.Machine
end

section
/-! Proofs about the validator operations (42_validator.md): the checksum and its check, the errors the check sees and
those it does not, and the ack comparison. -/

namespace Sys2Proof.Machine

open Sys2Proof.Safety

/-! ### CHECKSUM and CHECKSUM_OK -/

theorem exec_checksum {f : List Byte} {s : State} (h : f.length ≤ 254) :
    exec (.checksum f) s = .next (s.answer (.byte (checksumOf f))) :=
  exec_pure_of_allowed (i := .checksum f) rfl (seqRefusal_eq_none.mpr h)

theorem exec_checksumOk {f : List Byte} {kind : FrameKind} {s : State} (h : f.length ≤ 254) :
    exec (.checksumOk f kind) s = .next (s.answer (.bool (checksumHolds f kind))) :=
  exec_pure_of_allowed (i := .checksumOk f kind) rfl (seqRefusal_eq_none.mpr h)

/-- Settles O22: the span of a frame written out, and the empty span of a short one. -/
theorem checksumXorsTheDataSpan : Obligations.ChecksumXorsTheDataSpan := by
  unfold Obligations.ChecksumXorsTheDataSpan
  refine ⟨fun stx etx chk span s hlen => ?_, fun f s hlen => ?_⟩
  · rw [exec_checksum (by simp; omega), checksumOf_frame, State.answer]
  · rw [exec_checksum (by omega), checksumOf_short hlen, State.answer]

/-- Settles O23: the value of CHECKSUM_OK, with the required length of each kind as the length of the span. -/
theorem checksumOkChecksLengthAndSum : Obligations.ChecksumOkChecksLengthAndSum := by
  unfold Obligations.ChecksumOkChecksLengthAndSum
  refine fun f kind s hlen => ⟨checksumHolds f kind, exec_checksumOk hlen, ?_⟩
  rw [checksumHolds_iff]
  cases kind <;> simp [requiredLength, Config.cmdLen, Config.rspLen]

/-- An 8-byte frame passes its check when its last byte is the XOR of bytes 1 to 5 (R130, R131). -/
theorem checksumHolds_frameBytes (f : TxFrame) : checksumHolds (frameBytes f) .cmd = true ↔
    f.chk = f.len ^^^ f.ctrl ^^^ f.enable ^^^ f.escrow ^^^ f.rsvd := by
  have h : checksumHolds (frameBytes f) .cmd =
      ([f.len, f.ctrl, f.enable, f.escrow, f.rsvd].foldr (· ^^^ ·) 0#8 == f.chk) :=
    checksumHolds_frame f.stx f.etx f.chk [f.len, f.ctrl, f.enable, f.escrow, f.rsvd] .cmd
  rw [h, beq_iff_eq, eq_comm]
  simp [BitVec.xor_assoc]

theorem checksumHolds_commandFrame (ctrl en esc : Byte) :
    checksumHolds (frameBytes (commandFrame ctrl en esc)) .cmd = true := by
  rw [checksumHolds_frameBytes, commandFrame_eq]
  simp

theorem checksumHolds_resetFrame (a : Bit) : checksumHolds (frameBytes (resetFrame a)) .cmd = true := by
  revert a; decide

/-- CHECKSUM_OK answers true for a frame of the block that passes its check. -/
theorem exec_checksumOk_frame {f : TxFrame} (h : checksumHolds (frameBytes f) .cmd = true) (s : State) :
    exec (.checksumOk (frameBytes f) .cmd) s = .next (s.answer (.bool true)) := by
  rw [exec_checksumOk (by simp [frameBytes]), h]

/-- Settles O25: both encoders end in their frame's checksum. -/
theorem encodedFramesPassTheirCheck : Obligations.EncodedFramesPassTheirCheck := by
  unfold Obligations.EncodedFramesPassTheirCheck
  refine ⟨fun ctrl en esc s t h => ?_, fun a s t h => ?_⟩
  · cases h
    exact ⟨_, rfl, exec_checksumOk_frame (checksumHolds_commandFrame ctrl en esc) _⟩
  · cases h
    exact ⟨_, rfl, exec_checksumOk_frame (checksumHolds_resetFrame a) _⟩

/-! ### Which errors the check sees

The check of a frame of the right length is that its syndrome, the XOR of the covered bytes and the checksum byte, is
zero; flipping bits of one of these bytes flips the same bits of the syndrome. -/

/-- The XOR of the covered bytes and the last byte of a frame. -/
def syndrome (f : List Byte) : Byte := checksumOf f ^^^ byteAt f (f.length - 1)

/-- Byte `j` of a frame with the bits of `m` flipped. -/
def flipAt (f : List Byte) (j : Nat) (m : Byte) : List Byte := f.set j (f.getD j 0#8 ^^^ m)

@[simp] theorem length_flipAt (f : List Byte) (j : Nat) (m : Byte) : (flipAt f j m).length = f.length :=
  List.length_set

theorem checksumHolds_iff_syndrome {f : List Byte} {kind : FrameKind} :
    checksumHolds f kind = true ↔ f.length = requiredLength kind ∧ syndrome f = 0#8 := by
  unfold checksumHolds syndrome checksumOf
  by_cases hlen : f.length = requiredLength kind
  · simp [hlen]
  · simp [hlen]

theorem syndrome_frame (x y c : Byte) (span : List Byte) :
    syndrome (x :: span ++ [y, c]) = span.foldr (· ^^^ ·) 0#8 ^^^ c := by
  rw [syndrome, checksumOf_frame]
  simp [byteAt]

theorem foldr_xor_flipAt {l : List Byte} {i : Nat} (m : Byte) (h : i < l.length) :
    (flipAt l i m).foldr (· ^^^ ·) 0#8 = l.foldr (· ^^^ ·) 0#8 ^^^ m := by
  induction l generalizing i with
  | nil => simp at h
  | cons a l ih =>
    cases i with
    | zero => simp [flipAt, BitVec.xor_assoc, BitVec.xor_comm m]
    | succ i =>
      have hl := ih (Nat.lt_of_succ_lt_succ h)
      simp only [flipAt, List.getD_cons_succ, List.set_cons_succ, List.foldr_cons] at hl ⊢
      rw [hl, BitVec.xor_assoc]

/-- The bytes that the check reads, in a frame of length `n`: 1 to n-3, and n-1. -/
def IsChecked (n j : Nat) : Prop := (1 ≤ j ∧ j + 3 ≤ n) ∨ j + 1 = n

theorem flipAt_span (x y c m : Byte) {span : List Byte} {i : Nat} (h : i < span.length) :
    flipAt (x :: span ++ [y, c]) (i + 1) m = x :: flipAt span i m ++ [y, c] := by
  simp [flipAt, List.set_append_left _ _ h, List.getElem?_append_left h]

theorem flipAt_last (x y c m : Byte) (span : List Byte) :
    flipAt (x :: span ++ [y, c]) (span.length + 2) m = x :: span ++ [y, c ^^^ m] := by
  simp [flipAt]

/-- Flipping bits of a checked byte flips the same bits of the syndrome. -/
theorem syndrome_flipAt {f : List Byte} {j : Nat} (m : Byte) (hlen : 3 ≤ f.length) (hj : IsChecked f.length j) :
    syndrome (flipAt f j m) = syndrome f ^^^ m := by
  obtain ⟨x, y, c, span, rfl, -⟩ := frame_split (f := f) (n := f.length - 3) (by omega)
  have hn : (x :: span ++ [y, c]).length = span.length + 3 := by simp
  rw [hn] at hj
  obtain ⟨h1, h3⟩ | hlast := hj
  · obtain ⟨i, rfl⟩ : ∃ i, j = i + 1 := ⟨j - 1, by omega⟩
    have hi : i < span.length := by omega
    rw [flipAt_span x y c m hi, syndrome_frame, syndrome_frame, foldr_xor_flipAt m hi, BitVec.xor_assoc,
      BitVec.xor_comm m, BitVec.xor_assoc]
  · obtain rfl : j = span.length + 2 := by omega
    rw [flipAt_last, syndrome_frame, syndrome_frame, BitVec.xor_assoc]

/-- A true answer of CHECKSUM_OK: its operand was allowed and passed the check. -/
theorem exec_checksumOk_true {f : List Byte} {kind : FrameKind} {s t : State}
    (h : exec (.checksumOk f kind) s = .next t) (ht : t.response = some (.bool true)) :
    f.length ≤ 254 ∧ checksumHolds f kind = true := by
  obtain ⟨hallowed, rfl⟩ := (exec_pure_next_iff rfl).mp h
  exact ⟨seqRefusal_eq_none.mp hallowed, by simpa [pureAnswer] using ht⟩

theorem three_le_requiredLength (kind : FrameKind) : 3 ≤ requiredLength kind := by
  cases kind <;> decide

/-- Settles O26: a flip of one checked bit makes the syndrome nonzero. -/
theorem singleBitErrorsAreDetected : Obligations.SingleBitErrorsAreDetected := by
  unfold Obligations.SingleBitErrorsAreDetected
  intro f kind s j k h hj hk
  obtain ⟨hfits, hholds⟩ := exec_checksumOk_true h rfl
  obtain ⟨hlen, hzero⟩ := checksumHolds_iff_syndrome.mp hholds
  have hflip : syndrome (flipAt f j (0x01#8 <<< k)) = 0x01#8 <<< k := by
    rw [syndrome_flipAt _ (hlen ▸ three_le_requiredLength kind) (hlen ▸ hj), hzero, BitVec.zero_xor]
  have hbit : ∀ k < 8, 0x01#8 <<< k ≠ 0#8 := by decide
  have hfalse : checksumHolds (flipAt f j (0x01#8 <<< k)) kind = false := by
    rw [← Bool.not_eq_true, checksumHolds_iff_syndrome, hflip]
    exact fun hboth => hbit k hk hboth.2
  exact (exec_checksumOk (f := flipAt f j _) (by simpa using hfits)).trans (by rw [hfalse, State.answer])

/-- A change of STX and ETX and a reordering of the covered bytes leave the check's value (R135). -/
theorem checksumHolds_perm {span span' : List Byte} (h : span.Perm span') (x x' y y' c : Byte) (kind : FrameKind) :
    checksumHolds (x :: span ++ [y, c]) kind = checksumHolds (x' :: span' ++ [y', c]) kind := by
  rw [checksumHolds_frame, checksumHolds_frame, h.length_eq, h.foldr_eq]

/-- Flipping the same bits of two checked bytes leaves the check's value (R135). -/
theorem checksumHolds_flipAt_twice {f : List Byte} {kind : FrameKind} {j j' : Nat} (m : Byte)
    (hj : IsChecked (requiredLength kind) j) (hj' : IsChecked (requiredLength kind) j') :
    checksumHolds (flipAt (flipAt f j m) j' m) kind = checksumHolds f kind := by
  rw [Bool.eq_iff_iff, checksumHolds_iff_syndrome, checksumHolds_iff_syndrome, length_flipAt, length_flipAt]
  refine and_congr_right fun hlen => ?_
  have h3 : 3 ≤ f.length := hlen ▸ three_le_requiredLength kind
  rw [syndrome_flipAt m (by simpa using h3) (by rw [length_flipAt, hlen]; exact hj'),
    syndrome_flipAt m h3 (by rw [hlen]; exact hj), BitVec.xor_assoc, BitVec.xor_self, BitVec.xor_zero]

theorem getD_flipAt_of_ne {f : List Byte} {j j' : Nat} (m : Byte) (h : j ≠ j') :
    (flipAt f j m).getD j' 0#8 = f.getD j' 0#8 := by
  simp [flipAt, List.getElem?_set_ne h]

/-- Settles O27: the check's value does not change, so neither does the answer. -/
theorem checksumMissesTheseErrors : Obligations.ChecksumMissesTheseErrors := by
  unfold Obligations.ChecksumMissesTheseErrors
  refine ⟨fun x x' y y' c span span' kind s hperm hlen => ?_, fun f kind s j j' m hlen h1 hlt h3 hj' => ?_⟩
  · have hlen' := hperm.length_eq
    rw [exec_checksumOk (by simp; omega), exec_checksumOk (by simp; omega), checksumHolds_perm hperm x x' y y']
  · have hj : IsChecked (requiredLength kind) j := .inl ⟨h1, h3⟩
    have hj' : IsChecked (requiredLength kind) j' := hj'.imp_left fun h => ⟨by omega, h⟩
    have hkeep := checksumHolds_flipAt_twice (f := f) m hj hj'
    have hflip : (f.set j (f.getD j 0#8 ^^^ m)).set j' (f.getD j' 0#8 ^^^ m) = flipAt (flipAt f j m) j' m := by
      conv_rhs => rw [flipAt, getD_flipAt_of_ne m (by omega)]
      rfl
    rw [hflip, exec_checksumOk (by simpa using hlen), exec_checksumOk hlen, hkeep]

/-! ### ACK_MATCHES -/

theorem exec_ackMatches {sent received : List Byte} {s : State} (h : sent.length ≤ 254) (h' : received.length ≤ 254) :
    exec (.ackMatches sent received) s = .next (s.answer (.bool (ackBitsMatch sent received))) :=
  exec_pure_of_allowed (i := .ackMatches sent received) rfl
    (Option.or_eq_none_iff.mpr ⟨seqRefusal_eq_none.mpr h, seqRefusal_eq_none.mpr h'⟩)

theorem three_le_length_iff {f : List Byte} : 3 ≤ f.length ↔ ∃ x0 x1 x2 xs, f = x0 :: x1 :: x2 :: xs := by
  constructor
  · intro h
    match f, h with
    | x0 :: x1 :: x2 :: xs, _ => exact ⟨x0, x1, x2, xs, rfl⟩
  · rintro ⟨x0, x1, x2, xs, rfl⟩
    simp

/-- Settles O24: both operands have a byte 2, and these agree in bit 0. -/
theorem ackMatchesComparesAckBits : Obligations.AckMatchesComparesAckBits := by
  unfold Obligations.AckMatchesComparesAckBits
  refine fun sent received s h h' => ⟨ackBitsMatch sent received, exec_ackMatches h h', ?_⟩
  rw [ackBitsMatch_eq, and_one_eq_iff]
  constructor
  · rintro ⟨hs, hr, hbit⟩
    obtain ⟨x0, x1, x2, xs, rfl⟩ := three_le_length_iff.mp hs
    obtain ⟨y0, y1, y2, ys, rfl⟩ := three_le_length_iff.mp hr
    exact ⟨x0, x1, x2, y0, y1, y2, xs, ys, rfl, rfl, hbit⟩
  · rintro ⟨x0, x1, x2, y0, y1, y2, xs, ys, rfl, rfl, hbit⟩
    exact ⟨by simp, by simp, hbit⟩

end Sys2Proof.Machine
end

section
/-! Proofs about frames over time (43_sequence.md §2, 70_reset_and_hazards.md §2): the frames handed out, the retained
frame and its ack bit along a path of operations, and the hazards of a reset tick. -/

namespace Sys2Proof.Machine

open Sys2Proof.Safety

/-! ### The frames handed out -/

theorem checksumHolds_of_isCommandFrame {f : TxFrame} (h : IsCommandFrame f) :
    checksumHolds (frameBytes f) .cmd = true := by
  rw [checksumHolds_frameBytes, h.chk, h.len, h.rsvd, BitVec.xor_zero]

theorem frameBytes_resetFrame_cases (a : Bit) :
    frameBytes (resetFrame a) = [0x02#8, 0x08#8, 0x60#8, 0x7F#8, 0x7F#8, 0x7F#8, 0x03#8, 0x17#8] ∨
    frameBytes (resetFrame a) = [0x02#8, 0x08#8, 0x61#8, 0x7F#8, 0x7F#8, 0x7F#8, 0x03#8, 0x16#8] := by
  revert a; decide

/-- Settles O47: a reset frame is one of two, a retained frame is a command frame by the run's invariant, a fresh one
as it is built. -/
theorem transmittedFramesAreWellFormed : Obligations.TransmittedFramesAreWellFormed := by
  unfold Obligations.TransmittedFramesAreWellFormed
  intro en m k r s t hs h
  obtain ⟨hi, -, ⟨-, rfl⟩ | ⟨-, hrtx, rfl⟩ | ⟨-, -, rfl⟩⟩ := execTxSelect_next.mp h
  · exact ⟨_, _, rfl, rfl, fun _ => frameBytes_resetFrame_cases s.ack, fun hno => absurd rfl hno,
      exec_checksumOk_frame (checksumHolds_resetFrame s.ack) _⟩
  · have hf := hs.frame hi (.inl hrtx)
    exact ⟨_, _, rfl, rfl, nofun, fun _ => hf, exec_checksumOk_frame (checksumHolds_of_isCommandFrame hf) _⟩
  · have hf := freshFrame_isCommand s.ack en m k r
    exact ⟨_, _, rfl, rfl, nofun, fun _ => hf, exec_checksumOk_frame (checksumHolds_of_isCommandFrame hf) _⟩

/-! ### The retained frame's ack bit -/

theorem ackAligned_of_fresh {s : State} {a : Bit} {en : Byte} {m k r : Bit} (hlast : s.lastTx = freshFrame a en m k r)
    (hack : s.ack = a) : AckAligned s := by
  intro _
  rw [hlast, hack, freshFrame_ctrl, commandCtrl_ackBit]

/-- Every operation but a reset tick keeps the retained frame's ack bit equal to ACK (R155 (e)). -/
theorem exec_ackAligned {i : Instr} {s t : State} (h : exec i s = .next t) (hno : ¬ isResetTick i s)
    (hs : AckAligned s) : AckAligned t := by
  intro hlive
  obtain ⟨hlive', hlast, hack⟩ | ⟨en, m, k, r, hlast, hack⟩ := exec_lastTxLive h hlive
  · rw [hlast, hack hno]
    exact hs hlive'
  · exact ackAligned_of_fresh hlast hack hlive

/-- Settles O48: a fresh frame carries ACK, and until a reset tick ACK changes only where the frame is dropped. -/
theorem retainedAckBitFollowsAck : Obligations.RetainedAckBitFollowsAck := by
  unfold Obligations.RetainedAckBitFollowsAck
  refine fun i s t h hno => ⟨exec_ackAligned h hno, ?_, fun f hf => ?_⟩
  · rintro rfl hlive
    cases h
    simp [LastTxLive] at hlive
  · obtain ⟨en, m, k, r, -, hlast, hfresh, hack⟩ := exec_answers_fresh h hf
    exact ackAligned_of_fresh (hlast.trans hfresh) hack

/-! ### Along a path -/

/-- What every allowed operation keeps holds at the end of a path. -/
theorem Path.keeps {ok : State → Instr → State → Prop} {P : State → Prop}
    (hstep : ∀ s i t, exec i s = .next t → ok s i t → P s → P t) {s u : State} (hpath : Path ok s u) (hs : P s) :
    P u := by
  induction hpath with
  | refl s => exact hs
  | step i h hok _ ih => exact ih (hstep _ i _ h hok hs)

/-- A frame TX_SELECT sends on its replay or fresh path is the one LAST_TX holds (R152). -/
theorem execTxSelect_response {en : Byte} {m k r : Bit} {s t : State} (h : execTxSelect en m k r s = .next t)
    (hkind : t.txKind ≠ .reset) : t.response = some (.tx t.lastTx t.txKind) := by
  obtain ⟨-, -, ⟨-, rfl⟩ | ⟨-, -, rfl⟩ | ⟨-, -, rfl⟩⟩ := execTxSelect_next.mp h
  · exact absurd rfl hkind
  · rfl
  · rfl

/-- Settles O49: on such a path nothing writes LAST_TX. -/
theorem frameInFlightIsLastTx : Obligations.FrameInFlightIsLastTx := by
  unfold Obligations.FrameInFlightIsLastTx
  intro en m k r s t u h hkind hpath
  have hkeep : u.lastTx = t.lastTx := by
    refine Path.keeps (P := fun v => v.lastTx = t.lastTx) (fun v i w hexec hok hv => ?_) hpath rfl
    obtain hsame | ⟨en, m, k, r, hi, -⟩ := exec_lastTx hexec hok.1
    · exact hsame.trans hv
    · exact absurd hi (hok.2 en m k r)
  rw [hkeep]
  exact execTxSelect_response h hkind

/-- A retained frame stays retained, and LAST_TX keeps it, through every operation but INIT and an acceptance. -/
theorem exec_keeps_retained {i : Instr} {s t : State} (h : exec i s = .next t) (hinit : i ≠ .init)
    (hacc : ¬ wasAccepted t) (hrtx : s.rtxPending = true) : t.rtxPending = true ∧ t.lastTx = s.lastTx := by
  cases exec_effect h
  case init => exact absurd rfl hinit
  case sendFresh hno => simp [hrtx] at hno
  case accepted f d _ _ _ _ => exact absurd (wasAccepted_acceptedState d s) hacc
  case writeFailed | readFailed => exact ⟨rfl, rfl⟩
  all_goals exact ⟨hrtx, rfl⟩

/-- Settles O50: the frame stays retained along the path, so TX_SELECT takes its replay path. -/
theorem retainedFrameIsReplayedUntilAccepted : Obligations.RetainedFrameIsReplayedUntilAccepted := by
  unfold Obligations.RetainedFrameIsReplayedUntilAccepted
  intro s u hrtx hpath
  obtain ⟨hrtx', hlast⟩ : u.rtxPending = true ∧ u.lastTx = s.lastTx := by
    refine Path.keeps (P := fun v => v.rtxPending = true ∧ v.lastTx = s.lastTx)
      (fun v i w hexec hok hv => ?_) hpath ⟨hrtx, rfl⟩
    obtain ⟨hrtxw, hlastw⟩ := exec_keeps_retained hexec hok.1 hok.2 hv.1
    exact ⟨hrtxw, hlastw.trans hv.2⟩
  refine ⟨hrtx', hlast, fun hi hp hreset en m k r => ?_⟩
  rw [← hlast]
  exact execTxSelect_next.mpr ⟨hi, hp, .inr (.inl ⟨hreset, hrtx', rfl⟩)⟩

/-! ### The ack comparison of a response -/

/-- A response with a byte 2 is an AckMismatch exactly when its ack bit is not LAST_TX's (R154, R183). -/
theorem exec_rxResult_ackMismatch_iff {f : List Byte} {s t : State} (h : exec (.rxResult (.bytes f)) s = .next t)
    (h3 : 3 ≤ f.length) : t.response = some .ackMismatch ↔ f.getD 2 0#8 &&& 1#8 ≠ s.lastTx.ctrl &&& 1#8 := by
  have hack : ackBitsMatch (frameBytes s.lastTx) f = true ↔ f.getD 2 0#8 &&& 1#8 = s.lastTx.ctrl &&& 1#8 := by
    rw [ackBitsMatch_frame, and_one_eq_iff]
    exact and_iff_right h3
  obtain ⟨-, -, -, ⟨hno, -⟩ | ⟨f', hf', hj⟩⟩ := execRxResult_next.mp h
  · cases hno
  obtain rfl : f = f' := ReadResult.bytes.inj hf'
  rw [ne_eq, ← hack]
  rcases judgeResponse_next.mp hj with ⟨rfl, -⟩ | ⟨-, ha, rfl⟩ | ⟨-, ha, -, rfl⟩ | ⟨r, -, ha, -, -, rfl⟩ |
    ⟨d, -, ha, -, -, rfl⟩
  · simp at h3
  all_goals simp [ha]

/-- A bit and its inverse differ as bytes. -/
theorem setWidth_not_ne (a : Bit) : (~~~a).setWidth 8 ≠ a.setWidth 8 := by
  revert a; decide

/-- In RX_WAIT LAST_TX can be read, so an aligned state's frame carries ACK. -/
theorem lastTx_ackBit_of_rxResult {rx : ReadResult} {s t : State} (hs : AckAligned s)
    (h : exec (.rxResult rx) s = .next t) : s.lastTx.ctrl &&& 1#8 = s.ack.setWidth 8 :=
  hs (.inr (.inl (execRxResult_ends h).2.1))

/-- An accepted response carries LAST_TX's ack bit (R154). -/
theorem exec_rxResult_accepted_ackBit {f : List Byte} {s t : State} (h : exec (.rxResult (.bytes f)) s = .next t)
    (hacc : wasAccepted t) : 3 ≤ f.length ∧ f.getD 2 0#8 &&& 1#8 = s.lastTx.ctrl &&& 1#8 := by
  obtain ⟨f', d, hf', hack, -⟩ := exec_rxResult_accepted h hacc
  obtain rfl : f = f' := ReadResult.bytes.inj hf'
  rw [and_one_eq_iff]
  exact ackBitsMatch_frame.mp hack

/-- A frame sent without a reset request carries ACK, if the retained frame does (R152). -/
theorem execTxSelect_ackBit {en : Byte} {m k r : Bit} {s t : State} {f : TxFrame} {kind : TxKind} (hs : AckAligned s)
    (h : execTxSelect en m k r s = .next t) (hf : t.response = some (.tx f kind)) :
    f.ctrl &&& 1#8 = s.ack.setWidth 8 := by
  by_cases hkind : kind = .replay
  · obtain ⟨-, -, ⟨-, rfl⟩ | ⟨-, hrtx, rfl⟩ | ⟨-, -, rfl⟩⟩ := execTxSelect_next.mp h
    · simp [hkind] at hf
    · obtain ⟨rfl, -⟩ : s.lastTx = f ∧ TxKind.replay = kind := by simpa using hf
      exact hs (.inl hrtx)
    · simp [hkind] at hf
  · exact execTxSelect_builtFrame_ackBit h hf hkind

/-- Settles O51: along the path ACK keeps its toggled value and the retained frame carries it, so a response with the
other bit mismatches. -/
theorem duplicateResponsesAreNeverAccepted : Obligations.DuplicateResponsesAreNeverAccepted := by
  unfold Obligations.DuplicateResponsesAreNeverAccepted
  intro rx s t u h hacc hpath
  have htoggle : t.ack = ~~~s.ack := (execRxResult_ack h).1 hacc
  have haligned : AckAligned t := by
    obtain ⟨f, d, -, -, -, -, rfl⟩ := exec_rxResult_accepted h hacc
    intro hlive
    simp [LastTxLive] at hlive
  obtain ⟨hack, hu⟩ : u.ack = t.ack ∧ AckAligned u := by
    refine Path.keeps (P := fun v => v.ack = t.ack ∧ AckAligned v) (fun v i w hexec hok hv => ?_) hpath ⟨rfl, haligned⟩
    obtain ⟨hinit, hnoreset, hnoacc⟩ := hok
    have hkeep := exec_keeps_ack hexec hinit (fun hw => hw.elim hnoreset fun hrx => hnoacc hrx.2)
    exact ⟨hkeep.trans hv.1, exec_ackAligned hexec hnoreset hv.2⟩
  refine ⟨htoggle, hack, fun en m k r v f kind hv _ hf => ?_, fun f v hv h3 hbit => ?_, fun hs v hv => ?_⟩
  · rw [← hack]
    exact execTxSelect_ackBit hu hv hf
  · rw [exec_rxResult_ackMismatch_iff hv h3, lastTx_ackBit_of_rxResult hu hv, hack]
    exact hbit
  · obtain ⟨h3, hbit⟩ := exec_rxResult_accepted_ackBit h hacc
    rw [exec_rxResult_ackMismatch_iff hv h3, hbit, lastTx_ackBit_of_rxResult hs h, lastTx_ackBit_of_rxResult hu hv,
      hack, htoggle]
    exact (setWidth_not_ne s.ack).symm

/-! ### Ticks after a reset tick -/

/-- A reset tick inverts ACK, consumes the request, and leaves the retained frame and its flag (R152, R153). -/
theorem resetTick {en : Byte} {m k r : Bit} {w : BitVec 2} {s t u : State} (hreset : s.resetReq = true)
    (hsel : exec (.txSelect en m k r) s = .next t) (hres : exec (.txResult w) t = .next u) :
    u.ack = ~~~s.ack ∧ u.resetReq = false ∧ u.rtxPending = s.rtxPending ∧ u.lastTx = s.lastTx := by
  obtain ⟨-, -, ⟨-, rfl⟩ | ⟨hno, -⟩ | ⟨hno, -⟩⟩ := execTxSelect_next.mp hsel
  · obtain ⟨-, -, -, ⟨-, rfl⟩ | ⟨hno, -⟩ | ⟨hno, -⟩⟩ := execTxResult_next.mp hres
    · exact ⟨rfl, rfl, rfl, rfl⟩
    · exact absurd rfl hno
    · exact absurd rfl hno
  · simp [hreset] at hno
  · simp [hreset] at hno

/-- A good write keeps ACK, LAST_TX and the request flag (R153). -/
theorem execTxResult_written {s t : State} (h : execTxResult 0#2 s = .next t) :
    t.ack = s.ack ∧ t.lastTx = s.lastTx ∧ t.resetReq = s.resetReq := by
  obtain ⟨-, -, -, ⟨-, rfl⟩ | ⟨-, -, rfl⟩ | ⟨-, hbad, -⟩⟩ := execTxResult_next.mp h
  · exact ⟨rfl, rfl, rfl⟩
  · exact ⟨rfl, rfl, rfl⟩
  · exact absurd rfl hbad

/-- With a frame retained and no reset requested, TX_SELECT replays it (R152). -/
theorem execTxSelect_replays {en : Byte} {m k r : Bit} {s t : State} (hreset : s.resetReq = false)
    (hrtx : s.rtxPending = true) (h : execTxSelect en m k r s = .next t) :
    t.response = some (.tx s.lastTx .replay) ∧ t.lastTx = s.lastTx ∧ t.ack = s.ack ∧ t.resetReq = false := by
  obtain ⟨-, -, ⟨hno, -⟩ | ⟨-, -, rfl⟩ | ⟨-, hno, -⟩⟩ := execTxSelect_next.mp h
  · simp [hreset] at hno
  · exact ⟨rfl, rfl, rfl, hreset⟩
  · simp [hrtx] at hno

/-- With no frame retained and no reset requested, TX_SELECT sends a fresh frame that carries ACK (R152). -/
theorem execTxSelect_sends_fresh {en : Byte} {m k r : Bit} {s t : State} (hreset : s.resetReq = false)
    (hrtx : s.rtxPending = false) (h : execTxSelect en m k r s = .next t) :
    t.response = some (.tx t.lastTx .fresh) ∧ t.lastTx.ctrl &&& 1#8 = s.ack.setWidth 8 := by
  obtain ⟨-, -, ⟨hno, -⟩ | ⟨-, hno, -⟩ | ⟨-, -, rfl⟩⟩ := execTxSelect_next.mp h
  · simp [hreset] at hno
  · simp [hrtx] at hno
  · exact ⟨rfl, commandCtrl_ackBit s.ack⟩

/-- Settles O54: the reset tick leaves the frame, its replay is accepted, and ACK has been inverted twice. -/
theorem resetTickKeepsTheRetainedFrame : Obligations.ResetTickKeepsTheRetainedFrame := by
  unfold Obligations.ResetTickKeepsTheRetainedFrame
  intro en en' en'' m k r m' k' r' m'' k'' r'' w rx s s1 s2 s3 s4 s5 s6 hreset hrtx h1 h2 h3 h4 h5 hacc h6
  obtain ⟨hack2, hreset2, hrtx2, hlast2⟩ := resetTick hreset h1 h2
  obtain ⟨hresp3, -, hack3, hreset3⟩ := execTxSelect_replays hreset2 (hrtx2.trans hrtx) h3
  obtain ⟨hack4, -, hreset4⟩ := execTxResult_written h4
  obtain ⟨f, d, -, -, -, -, rfl⟩ := exec_rxResult_accepted h5 hacc
  have hack5 : (acceptedState d s4).ack = s.ack := by
    rw [acceptedState_ack, hack4, hack3, hack2, BitVec.not_not]
  obtain ⟨hresp6, hbit6⟩ := execTxSelect_sends_fresh (s := acceptedState d s4) (hreset4.trans hreset3) rfl h6
  exact ⟨hack2, hrtx2.trans hrtx, hlast2 ▸ hresp3, hack5, _, hresp6, hack5 ▸ hbit6⟩

/-- Settles O55: the answer has the ack bit from before the reset tick, which the next fresh frame has not and the
frame retained under it has. -/
theorem staleResetAnswerIsMismatched : Obligations.StaleResetAnswerIsMismatched := by
  unfold Obligations.StaleResetAnswerIsMismatched
  intro en en' m k r m' k' r' w rx s s1 s2 s3 s4 s5 hreset hlen hbit h1 h2 h3 h4 h5
  obtain ⟨hack2, hreset2, hrtx2, hlast2⟩ := resetTick hreset h1 h2
  obtain ⟨-, hlast4, -⟩ := execTxResult_written h4
  have hmismatch := exec_rxResult_ackMismatch_iff h5 hlen
  rw [hbit, hlast4] at hmismatch
  refine ⟨fun hrtx => ?_, fun hrtx hsame => ?_⟩
  · obtain ⟨hresp3, hbit3⟩ := execTxSelect_sends_fresh hreset2 (hrtx2.trans hrtx) h3
    rw [hbit3, hack2] at hmismatch
    have hresp5 : s5.response = some .ackMismatch := hmismatch.mpr (setWidth_not_ne s.ack).symm
    obtain ⟨-, -, ⟨r5, rfl, -⟩ | ⟨f, d, -, -, -, -, rfl⟩⟩ := execRxResult_ends h5
    · exact ⟨hresp5, rfl, by rw [State.answer_lastTx, State.retain_lastTx, hlast4]; exact hresp3⟩
    · simp at hresp5
  · obtain ⟨-, hlast3, -⟩ := execTxSelect_replays hreset2 (hrtx2.trans hrtx) h3
    rw [ne_eq, hmismatch, hlast3, hlast2, hsame]
    exact fun hne => hne rfl

end Sys2Proof.Machine
end
